-- ==== Sys2Proof/Word.lean ====
section
/-! DEFINITION. The bit-vector types of the machine (spec 00_scope.md R4, R6, R7). Every value of the ISA is unsigned. -/

namespace Sys2Proof

/-- An 8-bit value: a V register, a timer, a byte of memory (R4). -/
abbrev Byte := BitVec 8

/-- A 16-bit value: an instruction, PC, I, a stack entry (R4). -/
abbrev Word := BitVec 16

/-- A 4-bit register number, the X or Y field of an instruction (30_encoding.md R40). -/
abbrev Reg := BitVec 4

/-- The 12-bit address immediate NNN (30_encoding.md R40). -/
abbrev Addr12 := BitVec 12

end Sys2Proof
end

