-- ==== Sys2Proof/Syntax.lean ====
section
/-! DEFINITION. The instructions: one constructor per row of spec/opcode_table.json, in the order of
30_encoding.md R43, with the operand fields of R40. -/

namespace Sys2Proof

/-- The 35 instructions (30_encoding.md R43). `x` and `y` are register numbers, `n` a 4-bit immediate,
`nn` an 8-bit immediate, `nnn` a 12-bit address. -/
inductive Instr where
  /-- `0NNN` SYS nnn (41_control_flow.md R52) -/
  | sys (nnn : Addr12)
  /-- `00E0` CLS (44_display.md R81) -/
  | cls
  /-- `00EE` RET (41_control_flow.md R53) -/
  | ret
  /-- `1NNN` JP nnn (41_control_flow.md R54) -/
  | jp (nnn : Addr12)
  /-- `2NNN` CALL nnn (41_control_flow.md R55) -/
  | call (nnn : Addr12)
  /-- `3XNN` SE Vx, nn (41_control_flow.md R56) -/
  | seByte (x : Reg) (nn : Byte)
  /-- `4XNN` SNE Vx, nn (41_control_flow.md R57) -/
  | sneByte (x : Reg) (nn : Byte)
  /-- `5XY0` SE Vx, Vy (41_control_flow.md R58) -/
  | seReg (x y : Reg)
  /-- `6XNN` LD Vx, nn (42_alu.md R62) -/
  | ldByte (x : Reg) (nn : Byte)
  /-- `7XNN` ADD Vx, nn (42_alu.md R63) -/
  | addByte (x : Reg) (nn : Byte)
  /-- `8XY0` LD Vx, Vy (42_alu.md R64) -/
  | ldReg (x y : Reg)
  /-- `8XY1` OR Vx, Vy (42_alu.md R65) -/
  | orReg (x y : Reg)
  /-- `8XY2` AND Vx, Vy (42_alu.md R66) -/
  | andReg (x y : Reg)
  /-- `8XY3` XOR Vx, Vy (42_alu.md R67) -/
  | xorReg (x y : Reg)
  /-- `8XY4` ADD Vx, Vy (42_alu.md R68) -/
  | addReg (x y : Reg)
  /-- `8XY5` SUB Vx, Vy (42_alu.md R69) -/
  | sub (x y : Reg)
  /-- `8XY6` SHR Vx, Vy (42_alu.md R70); `y` is part of the word, ignored by the meaning (R41) -/
  | shr (x y : Reg)
  /-- `8XY7` SUBN Vx, Vy (42_alu.md R71) -/
  | subn (x y : Reg)
  /-- `8XYE` SHL Vx, Vy (42_alu.md R72); `y` is part of the word, ignored by the meaning (R41) -/
  | shl (x y : Reg)
  /-- `9XY0` SNE Vx, Vy (41_control_flow.md R59) -/
  | sneReg (x y : Reg)
  /-- `ANNN` LD I, nnn (43_index_memory.md R75) -/
  | ldI (nnn : Addr12)
  /-- `BNNN` JP V0, nnn (41_control_flow.md R60) -/
  | jpV0 (nnn : Addr12)
  /-- `CXNN` RND Vx, nn (42_alu.md R73) -/
  | rnd (x : Reg) (nn : Byte)
  /-- `DXYN` DRW Vx, Vy, n (44_display.md R82) -/
  | drw (x y : Reg) (n : BitVec 4)
  /-- `EX9E` SKP Vx (45_timers_keypad.md R83) -/
  | skp (x : Reg)
  /-- `EXA1` SKNP Vx (45_timers_keypad.md R84) -/
  | sknp (x : Reg)
  /-- `FX07` LD Vx, DT (45_timers_keypad.md R85) -/
  | ldVxDt (x : Reg)
  /-- `FX0A` LD Vx, K (45_timers_keypad.md R86) -/
  | ldVxK (x : Reg)
  /-- `FX15` LD DT, Vx (45_timers_keypad.md R87) -/
  | ldDtVx (x : Reg)
  /-- `FX18` LD ST, Vx (45_timers_keypad.md R88) -/
  | ldStVx (x : Reg)
  /-- `FX1E` ADD I, Vx (43_index_memory.md R76) -/
  | addI (x : Reg)
  /-- `FX29` LD F, Vx (43_index_memory.md R77) -/
  | ldF (x : Reg)
  /-- `FX33` LD B, Vx (43_index_memory.md R78) -/
  | ldB (x : Reg)
  /-- `FX55` LD [I], Vx (43_index_memory.md R79) -/
  | ldMemVx (x : Reg)
  /-- `FX65` LD Vx, [I] (43_index_memory.md R80) -/
  | ldVxMem (x : Reg)
  deriving DecidableEq, Repr

end Sys2Proof
end

