-- ==== Sys2Proof/Decode.lean ====
section
/-! DEFINITION. The decoder, total on all 65536 words (30_encoding.md R43), then the encoder written from the same
rows, and the opcode map of R43 as a table of masks and matches. -/

namespace Sys2Proof

/-! ### Fields (30_encoding.md R40, R41) -/

/-- `op = ins[15:12]`, the family. -/
def fieldOp (ins : Word) : BitVec 4 := ins.extractLsb' 12 4
/-- `X = ins[11:8]`. -/
def fieldX (ins : Word) : Reg := ins.extractLsb' 8 4
/-- `Y = ins[7:4]`. -/
def fieldY (ins : Word) : Reg := ins.extractLsb' 4 4
/-- `N = ins[3:0]`. -/
def fieldN (ins : Word) : BitVec 4 := ins.extractLsb' 0 4
/-- `NN = ins[7:0]`. -/
def fieldNN (ins : Word) : Byte := ins.extractLsb' 0 8
/-- `NNN = ins[11:0]`. -/
def fieldNNN (ins : Word) : Addr12 := ins.extractLsb' 0 12

/-- `hi : lo`, big-endian: the byte at the lower address is the high byte (00_scope.md R7, 20_memory.md R27). -/
def joinBytes (hi lo : Byte) : Word := hi ++ lo
/-- The high byte of a word, the one at the lower address (R27). -/
def highByte (w : Word) : Byte := w.extractLsb' 8 8
/-- The low byte of a word, the one at the higher address (R27). -/
def lowByte (w : Word) : Byte := w.extractLsb' 0 8

/-! ### Decode -/

/-- The reserved spaces of R46, by name: the words that decode to UNKNOWN, one name per family. -/
inductive DecodeError where
  /-- `5XYn`, n ≠ 0, under STRICT_5_9 -/
  | unknown5
  /-- `8XYn`, n one of 8, 9, A, B, C, D, F -/
  | unknown8
  /-- `9XYn`, n ≠ 0, under STRICT_5_9 -/
  | unknown9
  /-- `EXnn`, nn neither 9E nor A1 -/
  | unknownE
  /-- `FXnn`, nn none of the nine sub-opcodes -/
  | unknownF
  /-- fewer than two bytes were given (no such case exists in a fetch, R42) -/
  | truncated
  deriving DecidableEq, Repr

/-- Family 0: the exact rows win over SYS (R43). -/
def decodeFamily0 (ins : Word) : Except DecodeError Instr :=
  if ins = 0x00E0#16 then .ok .cls
  else if ins = 0x00EE#16 then .ok .ret
  else .ok (.sys (fieldNNN ins))

/-- Family 5, under the parameter STRICT_5_9 (R43). -/
def decodeFamily5 (strict : Bool) (ins : Word) : Except DecodeError Instr :=
  if fieldN ins = 0x0#4 || !strict then .ok (.seReg (fieldX ins) (fieldY ins)) else .error .unknown5

/-- Family 8, by the low nibble (R43). -/
def decodeFamily8 (ins : Word) : Except DecodeError Instr :=
  match fieldN ins with
  | 0x0#4 => .ok (.ldReg (fieldX ins) (fieldY ins))
  | 0x1#4 => .ok (.orReg (fieldX ins) (fieldY ins))
  | 0x2#4 => .ok (.andReg (fieldX ins) (fieldY ins))
  | 0x3#4 => .ok (.xorReg (fieldX ins) (fieldY ins))
  | 0x4#4 => .ok (.addReg (fieldX ins) (fieldY ins))
  | 0x5#4 => .ok (.sub (fieldX ins) (fieldY ins))
  | 0x6#4 => .ok (.shr (fieldX ins) (fieldY ins))
  | 0x7#4 => .ok (.subn (fieldX ins) (fieldY ins))
  | 0xE#4 => .ok (.shl (fieldX ins) (fieldY ins))
  | _ => .error .unknown8

/-- Family 9, under the parameter STRICT_5_9 (R43). -/
def decodeFamily9 (strict : Bool) (ins : Word) : Except DecodeError Instr :=
  if fieldN ins = 0x0#4 || !strict then .ok (.sneReg (fieldX ins) (fieldY ins)) else .error .unknown9

/-- Family E, by the low byte (R43). -/
def decodeFamilyE (ins : Word) : Except DecodeError Instr :=
  match fieldNN ins with
  | 0x9E#8 => .ok (.skp (fieldX ins))
  | 0xA1#8 => .ok (.sknp (fieldX ins))
  | _ => .error .unknownE

/-- Family F, by the low byte (R43). -/
def decodeFamilyF (ins : Word) : Except DecodeError Instr :=
  match fieldNN ins with
  | 0x07#8 => .ok (.ldVxDt (fieldX ins))
  | 0x0A#8 => .ok (.ldVxK (fieldX ins))
  | 0x15#8 => .ok (.ldDtVx (fieldX ins))
  | 0x18#8 => .ok (.ldStVx (fieldX ins))
  | 0x1E#8 => .ok (.addI (fieldX ins))
  | 0x29#8 => .ok (.ldF (fieldX ins))
  | 0x33#8 => .ok (.ldB (fieldX ins))
  | 0x55#8 => .ok (.ldMemVx (fieldX ins))
  | 0x65#8 => .ok (.ldVxMem (fieldX ins))
  | _ => .error .unknownF

/-- Decode (R43): every word is exactly one instruction, or UNKNOWN by the name of its reserved space.
`strict` is the parameter STRICT_5_9 of 00_scope.md R5. -/
def decode (strict : Bool) (ins : Word) : Except DecodeError Instr :=
  match fieldOp ins with
  | 0x0#4 => decodeFamily0 ins
  | 0x1#4 => .ok (.jp (fieldNNN ins))
  | 0x2#4 => .ok (.call (fieldNNN ins))
  | 0x3#4 => .ok (.seByte (fieldX ins) (fieldNN ins))
  | 0x4#4 => .ok (.sneByte (fieldX ins) (fieldNN ins))
  | 0x5#4 => decodeFamily5 strict ins
  | 0x6#4 => .ok (.ldByte (fieldX ins) (fieldNN ins))
  | 0x7#4 => .ok (.addByte (fieldX ins) (fieldNN ins))
  | 0x8#4 => decodeFamily8 ins
  | 0x9#4 => decodeFamily9 strict ins
  | 0xA#4 => .ok (.ldI (fieldNNN ins))
  | 0xB#4 => .ok (.jpV0 (fieldNNN ins))
  | 0xC#4 => .ok (.rnd (fieldX ins) (fieldNN ins))
  | 0xD#4 => .ok (.drw (fieldX ins) (fieldY ins) (fieldN ins))
  | 0xE#4 => decodeFamilyE ins
  -- the one nibble left, 0xF
  | _ => decodeFamilyF ins

/-- Decoding from bytes as memory holds them: the first two bytes, big-endian (R27, R42); every instruction
is exactly two bytes (R48). -/
def decodeBytes (strict : Bool) : List Byte → Except DecodeError (Instr × List Byte)
  | hi :: lo :: rest =>
    match decode strict (joinBytes hi lo) with
    | .ok i => .ok (i, rest)
    | .error e => .error e
  | _ => .error .truncated

/-! ### Encode -/

/-- A word from a family nibble and NNN (R40). -/
def wordNNN (op : BitVec 4) (nnn : Addr12) : Word := op ++ nnn
/-- A word from a family nibble, X and NN (R40). -/
def wordXNN (op : BitVec 4) (x : Reg) (nn : Byte) : Word := op ++ x ++ nn
/-- A word from a family nibble, X, Y and N (R40). -/
def wordXYN (op : BitVec 4) (x y : Reg) (n : BitVec 4) : Word := op ++ x ++ y ++ n

/-- The word of an instruction, from the rows of R43. -/
def encode : Instr → Word
  | .sys nnn => wordNNN 0x0#4 nnn
  | .cls => 0x00E0#16
  | .ret => 0x00EE#16
  | .jp nnn => wordNNN 0x1#4 nnn
  | .call nnn => wordNNN 0x2#4 nnn
  | .seByte x nn => wordXNN 0x3#4 x nn
  | .sneByte x nn => wordXNN 0x4#4 x nn
  | .seReg x y => wordXYN 0x5#4 x y 0x0#4
  | .ldByte x nn => wordXNN 0x6#4 x nn
  | .addByte x nn => wordXNN 0x7#4 x nn
  | .ldReg x y => wordXYN 0x8#4 x y 0x0#4
  | .orReg x y => wordXYN 0x8#4 x y 0x1#4
  | .andReg x y => wordXYN 0x8#4 x y 0x2#4
  | .xorReg x y => wordXYN 0x8#4 x y 0x3#4
  | .addReg x y => wordXYN 0x8#4 x y 0x4#4
  | .sub x y => wordXYN 0x8#4 x y 0x5#4
  | .shr x y => wordXYN 0x8#4 x y 0x6#4
  | .subn x y => wordXYN 0x8#4 x y 0x7#4
  | .shl x y => wordXYN 0x8#4 x y 0xE#4
  | .sneReg x y => wordXYN 0x9#4 x y 0x0#4
  | .ldI nnn => wordNNN 0xA#4 nnn
  | .jpV0 nnn => wordNNN 0xB#4 nnn
  | .rnd x nn => wordXNN 0xC#4 x nn
  | .drw x y n => wordXYN 0xD#4 x y n
  | .skp x => wordXNN 0xE#4 x 0x9E#8
  | .sknp x => wordXNN 0xE#4 x 0xA1#8
  | .ldVxDt x => wordXNN 0xF#4 x 0x07#8
  | .ldVxK x => wordXNN 0xF#4 x 0x0A#8
  | .ldDtVx x => wordXNN 0xF#4 x 0x15#8
  | .ldStVx x => wordXNN 0xF#4 x 0x18#8
  | .addI x => wordXNN 0xF#4 x 0x1E#8
  | .ldF x => wordXNN 0xF#4 x 0x29#8
  | .ldB x => wordXNN 0xF#4 x 0x33#8
  | .ldMemVx x => wordXNN 0xF#4 x 0x55#8
  | .ldVxMem x => wordXNN 0xF#4 x 0x65#8

/-- The two bytes of an instruction, the high byte first (R27). -/
def encodeBytes (i : Instr) : List Byte := [highByte (encode i), lowByte (encode i)]

/-! ### The opcode map -/

/-- The name of an instruction's row, as R43 and spec/opcode_table.json spell it. -/
def Instr.mnemonic : Instr → String
  | .sys _ => "SYS"
  | .cls => "CLS"
  | .ret => "RET"
  | .jp _ => "JP"
  | .call _ => "CALL"
  | .seByte _ _ => "SE_BYTE"
  | .sneByte _ _ => "SNE_BYTE"
  | .seReg _ _ => "SE_REG"
  | .ldByte _ _ => "LD_BYTE"
  | .addByte _ _ => "ADD_BYTE"
  | .ldReg _ _ => "LD_REG"
  | .orReg _ _ => "OR"
  | .andReg _ _ => "AND"
  | .xorReg _ _ => "XOR"
  | .addReg _ _ => "ADD_REG"
  | .sub _ _ => "SUB"
  | .shr _ _ => "SHR"
  | .subn _ _ => "SUBN"
  | .shl _ _ => "SHL"
  | .sneReg _ _ => "SNE_REG"
  | .ldI _ => "LD_I"
  | .jpV0 _ => "JP_V0"
  | .rnd _ _ => "RND"
  | .drw _ _ _ => "DRW"
  | .skp _ => "SKP"
  | .sknp _ => "SKNP"
  | .ldVxDt _ => "LD_VX_DT"
  | .ldVxK _ => "LD_VX_K"
  | .ldDtVx _ => "LD_DT_VX"
  | .ldStVx _ => "LD_ST_VX"
  | .addI _ => "ADD_I"
  | .ldF _ => "LD_F"
  | .ldB _ => "LD_B"
  | .ldMemVx _ => "LD_MEM_VX"
  | .ldVxMem _ => "LD_VX_MEM"

/-- The mask and match of an instruction's row of R43 (STRICT_5_9 = true): a word `ins` is of the row when
`ins &&& mask = match`. -/
def Instr.rowMaskMatch : Instr → Word × Word
  | .sys _ => (0xF000, 0x0000)
  | .cls => (0xFFFF, 0x00E0)
  | .ret => (0xFFFF, 0x00EE)
  | .jp _ => (0xF000, 0x1000)
  | .call _ => (0xF000, 0x2000)
  | .seByte _ _ => (0xF000, 0x3000)
  | .sneByte _ _ => (0xF000, 0x4000)
  | .seReg _ _ => (0xF00F, 0x5000)
  | .ldByte _ _ => (0xF000, 0x6000)
  | .addByte _ _ => (0xF000, 0x7000)
  | .ldReg _ _ => (0xF00F, 0x8000)
  | .orReg _ _ => (0xF00F, 0x8001)
  | .andReg _ _ => (0xF00F, 0x8002)
  | .xorReg _ _ => (0xF00F, 0x8003)
  | .addReg _ _ => (0xF00F, 0x8004)
  | .sub _ _ => (0xF00F, 0x8005)
  | .shr _ _ => (0xF00F, 0x8006)
  | .subn _ _ => (0xF00F, 0x8007)
  | .shl _ _ => (0xF00F, 0x800E)
  | .sneReg _ _ => (0xF00F, 0x9000)
  | .ldI _ => (0xF000, 0xA000)
  | .jpV0 _ => (0xF000, 0xB000)
  | .rnd _ _ => (0xF000, 0xC000)
  | .drw _ _ _ => (0xF000, 0xD000)
  | .skp _ => (0xF0FF, 0xE09E)
  | .sknp _ => (0xF0FF, 0xE0A1)
  | .ldVxDt _ => (0xF0FF, 0xF007)
  | .ldVxK _ => (0xF0FF, 0xF00A)
  | .ldDtVx _ => (0xF0FF, 0xF015)
  | .ldStVx _ => (0xF0FF, 0xF018)
  | .addI _ => (0xF0FF, 0xF01E)
  | .ldF _ => (0xF0FF, 0xF029)
  | .ldB _ => (0xF0FF, 0xF033)
  | .ldMemVx _ => (0xF0FF, 0xF055)
  | .ldVxMem _ => (0xF0FF, 0xF065)

/-! ### The host's table words -/

/-- The word whose bits the opcode table numbers as `w`, `nbits` of them; the bits above are zero. -/
def tableWord (nbits w : Nat) : Word := BitVec.ofNat 16 (w % 2 ^ nbits)

/-- The instruction the decoder reads from the bytes of a table word, laid out as memory holds them, under the
default parameters of 00_scope.md R5 (STRICT_5_9 = true). -/
def decodeTableWord (nbits w : Nat) : Option Instr :=
  match decodeBytes true [highByte (tableWord nbits w), lowByte (tableWord nbits w)] with
  | .ok (i, _) => some i
  | .error _ => none

end Sys2Proof
end

