-- ==== Sys2Proof/Config.lean ====
section
/-! DEFINITION. The parameters of the machine: the fixed ones of 00_scope.md R4 as constants, the open ones of R5 as a
structure with the spec's defaults, and the one free value, the random byte of CXNN. -/

namespace Sys2Proof

/-! ### Fixed parameters (R4) -/

/-- MEM_SIZE. -/
def memSize : Nat := 4096
/-- PROGRAM_START: reset PC, program load address, underflow recovery target. -/
def programStart : Word := 0x200#16
/-- DISPLAY_W. -/
def displayW : Nat := 64
/-- DISPLAY_H. -/
def displayH : Nat := 32
/-- SPRITE_W. -/
def spriteW : Nat := 8
/-- GLYPH_SIZE, bytes of one glyph. -/
def glyphSize : Nat := 5
/-- The size of the glyph table, NUM_GLYPHS × GLYPH_SIZE. -/
def fontSize : Nat := 80
/-- NUM_KEYS. -/
def numKeys : Nat := 16
/-- The most bytes LOAD_PROGRAM takes, 4096 - 0x200 (70_reset_and_hazards.md R113). -/
def maxImage : Nat := 3584

/-! ### Open parameters (R5) -/

/-- SYS_POLICY: what `0NNN` does (41_control_flow.md R52). -/
inductive SysPolicy where
  /-- SYS raises UnknownInstruction (the default). -/
  | unknown
  /-- SYS has no effect beyond the fetch. -/
  | nop
  deriving DecidableEq, Repr

/-- The error kinds (60_exceptions.md R89). -/
inductive ErrorKind where
  | unknownInstruction
  | stackUnderflow
  | stackOverflow
  | outOfBoundsAccess
  deriving DecidableEq, Repr

/-- What the host does after an error report (60_exceptions.md R97): `halt`, or `continue`. -/
inductive HostAction where
  | halt
  | carryOn
  deriving DecidableEq, Repr

/-- HOST_ERROR_POLICY: the map from error kind to `halt` or `continue` (R5, R97). -/
structure ErrorPolicy where
  unknownInstruction : HostAction
  stackUnderflow : HostAction
  stackOverflow : HostAction
  outOfBoundsAccess : HostAction
  deriving DecidableEq, Repr

/-- The open parameters of R5 that a step reads. FONT_GLYPHS is the argument of LOAD_FONT, with the default
`fontGlyphs`; RAND is `Config.freeByte`, or the byte the host supplies with STEP. -/
structure Config where
  /-- STACK_DEPTH, at least 16. -/
  stackDepth : Nat
  /-- FONT_BASE, 0x000 to 0x1B0. -/
  fontBase : Nat
  /-- SYS_POLICY. -/
  sysPolicy : SysPolicy
  /-- STRICT_5_9. -/
  strict59 : Bool
  /-- HOST_ERROR_POLICY. -/
  errorPolicy : ErrorPolicy
  deriving DecidableEq, Repr

/-- The ranges R5 gives the parameters. -/
def Config.wf (c : Config) : Bool := decide (16 ≤ c.stackDepth) && decide (c.fontBase + fontSize ≤ 0x200)

/-- The defaults of R5, the spec's choice for this hardware (log 1). -/
def Config.defaults : Config where
  stackDepth := 16
  fontBase := 0x050
  sysPolicy := .unknown
  strict59 := true
  errorPolicy := ⟨.halt, .halt, .halt, .halt⟩

/-- FREE VALUE (RAND of R5): the byte of the n-th CXNN draw that the host did not supply. No body: nothing is known
of any draw, and nothing relates two draws (42_alu.md R73, log 4). -/
opaque Config.freeByte : Nat → BitVec 8

/-- FONT_GLYPHS, the default glyph table of 43_index_memory.md R77 (general knowledge in the spec's own words; log 7). -/
def fontGlyphs : Vector Byte 80 := #v[
  0xF0, 0x90, 0x90, 0x90, 0xF0,  0x20, 0x60, 0x20, 0x20, 0x70,
  0xF0, 0x10, 0xF0, 0x80, 0xF0,  0xF0, 0x10, 0xF0, 0x10, 0xF0,
  0x90, 0x90, 0xF0, 0x10, 0x10,  0xF0, 0x80, 0xF0, 0x10, 0xF0,
  0xF0, 0x80, 0xF0, 0x90, 0xF0,  0xF0, 0x10, 0x20, 0x40, 0x40,
  0xF0, 0x90, 0xF0, 0x90, 0xF0,  0xF0, 0x90, 0xF0, 0x10, 0xF0,
  0xF0, 0x90, 0xF0, 0x90, 0x90,  0xE0, 0x90, 0xE0, 0x90, 0xE0,
  0xF0, 0x80, 0x80, 0x80, 0xF0,  0xE0, 0x90, 0x90, 0x90, 0xE0,
  0xF0, 0x80, 0xF0, 0x80, 0xF0,  0xF0, 0x80, 0xF0, 0x80, 0x80]

end Sys2Proof
end

