-- ==== Sys2Proof/Machine/State.lean ====
section
/-! DEFINITION. The state of the machine as plain data (10_state.md R11 to R23), the reasons a step can stop, and the
state after reset. -/

namespace Sys2Proof.Machine

/-- Memory: (address, byte) pairs in one canonical form, addresses strictly rising and no entry equal to 0, which is
what an unlisted address reads as (10_state.md R21: reset value all 0). Reading, writing and the form itself are in
Machine/Ops.lean. -/
abbrev Memory := List Host.Cell

/-- The framebuffer: row `y` is entry `y`, column `x` is bit `x` of the row (10_state.md R20). -/
abbrev Framebuffer := Vector (BitVec 64) 32

/-- An error record `(code, ins, addr)` (60_exceptions.md R90). The code is `kind.code`. -/
structure ErrorReport where
  kind : ErrorKind
  /-- the raw instruction that raised it -/
  ins : Word
  /-- the address it was fetched from -/
  addr : Word
  deriving DecidableEq, Repr

/-- What SNAPSHOT returns: the whole state tuple of R11 (60_exceptions.md R104). -/
structure Snapshot where
  v : Vector Byte 16
  i : Word
  pc : Word
  sp : Nat
  stack : List Word
  dt : Byte
  st : Byte
  key : Vector Bool 16
  fb : Framebuffer
  mem : Memory
  deriving DecidableEq, Repr

/-- What a host command returns (60_exceptions.md R104). -/
inductive Response where
  /-- nothing: RESET, the loads, SET_KEYS and TICK return no status -/
  | empty
  /-- STEP returned OK -/
  | ok
  /-- STEP returned an error record (R90, R96) -/
  | report (r : ErrorReport)
  /-- READ_FB: the 2048 pixels, (x, y) at index y * 64 + x (R107) -/
  | pixels (bits : Vector Bool 2048)
  /-- READ_TIMERS: DT, ST and sound_active (R103) -/
  | timers (dt st : Byte) (soundActive : Bool)
  /-- SNAPSHOT -/
  | snapshot (t : Snapshot)
  deriving DecidableEq, Repr

/-- The host commands (60_exceptions.md R104). -/
inductive Command where
  | reset
  | loadFont (g : Vector Byte 80)
  | loadProgram (image : List Byte)
  | setKeys (keys : Vector Bool 16)
  /-- STEP, with the draw for CXNN if the host supplies one -/
  | step (draw : Option Byte)
  | tick
  | readFb
  | readTimers
  | takeSnapshot
  deriving DecidableEq, Repr

/-- The state: the tuple of R11, then the bookkeeping R97 and R39 ask of a model, the parameters, and the model's own
fields (INVENTORY.md, '## State'). -/
structure State where
  /-- V0 to VF (R12); V[15] is VF (R13) -/
  v : Vector Byte 16
  /-- I, the index register (R14) -/
  i : Word
  /-- PC (R15) -/
  pc : Word
  /-- SP, the count of live stack entries (R16) -/
  sp : Nat
  /-- the call stack, STACK_DEPTH entries, stale ones kept (R16) -/
  stack : List Word
  /-- DT (R17) -/
  dt : Byte
  /-- ST (R18) -/
  st : Byte
  /-- the keypad, true is pressed (R19) -/
  key : Vector Bool 16
  /-- the framebuffer (R20) -/
  fb : Framebuffer
  /-- the 4096 bytes of memory (R21) -/
  mem : Memory
  /-- the open parameters of 00_scope.md R5: configuration, written by nothing (R22, log 1) -/
  cfg : Config
  /-- whether a STEP has run since RESET (20_memory.md R39, log 3) -/
  started : Bool
  /-- the sticky `halted` mark with its report (60_exceptions.md R97) -/
  halted : Option ErrorReport
  /-- what the last host command returned (R104): the model's own field (log 2) -/
  response : Response
  /-- the byte the host supplied with the STEP in progress, if any (R104): the model's own field (log 4) -/
  draw : Option Byte
  /-- how many draws CXNN has taken: the model's own field (log 4) -/
  drawCount : Nat
  /-- the host commands waiting, oldest first: the model's own field (log 6) -/
  inputs : List Command
  deriving DecidableEq, Repr

/-- Why the machine stops with a fault. -/
inductive Fault where
  /-- A stack index outside the stack. Raised by CALL and RET where SP and the stack do not fit each other, which no
  state that meets the invariant allows: "indicates an implementation bug, not a runtime condition" (R94). Safe: the
  run ends and no value is made up. -/
  | outOfBoundsAccess (r : ErrorReport)
  deriving DecidableEq, Repr

/-- Why a command is refused. -/
inductive Refusal where
  /-- No meaning yet for this instruction. Raised by an arm of exec only. Safe. -/
  | notModelled (mnemonic : String)
  /-- STEP while the halted mark is set: "every later STEP is refused" (R97). Raised by the STEP command. Safe. -/
  | stepHalted (r : ErrorReport)
  /-- LOAD_FONT or LOAD_PROGRAM after the first STEP of a run (20_memory.md R39). Raised by those commands. Safe. -/
  | loadAfterStep
  /-- LOAD_PROGRAM of more than 3584 bytes (70_reset_and_hazards.md R113). Raised by that command. Safe. -/
  | imageTooLarge
  deriving DecidableEq, Repr

/-- The state after RESET with parameters `c`, `n` draws taken so far and commands `q` still to come
(70_reset_and_hazards.md R109: every element of the tuple at its reset value, the halted mark clear). -/
def State.resetWith (c : Config) (n : Nat) (q : List Command) : State where
  v := Vector.replicate 16 0
  i := 0
  pc := programStart
  sp := 0
  stack := List.replicate c.stackDepth 0
  dt := 0
  st := 0
  key := Vector.replicate 16 false
  fb := Vector.replicate 32 0
  mem := []
  cfg := c
  started := false
  halted := none
  response := .empty
  draw := none
  drawCount := n
  inputs := q

/-- The machine right after reset, under the default parameters of 00_scope.md R5 (70_reset_and_hazards.md R109,
R110; log 1). -/
def State.reset : State := State.resetWith Config.defaults 0 []

end Sys2Proof.Machine
end

