-- ==== Sys2Proof/Machine/Ops.lean ====
section
/-! DEFINITION. The named operations every meaning is written over: registers, memory, the call stack, fetch, skip, the
draw, and error reports. -/

namespace Sys2Proof.Machine

/-! ### Memory (20_memory.md R24 to R30) -/

/-- What an address with no entry reads as: memory resets to all 0 (10_state.md R21). -/
def Memory.blank : Byte := 0

/-- One byte. -/
def Memory.read : Memory → Nat → Byte
  | [], _ => Memory.blank
  | (k, b) :: m, a => if k = a then b else Memory.read m a

/-- Store one byte, keeping the canonical form: writing the blank value removes the entry. -/
def Memory.write : Memory → Nat → Byte → Memory
  | [], a, b => if b = Memory.blank then [] else [(a, b)]
  | (k, c) :: m, a, b =>
    if a < k then (if b = Memory.blank then (k, c) :: m else (a, b) :: (k, c) :: m)
    else if a = k then (if b = Memory.blank then m else (a, b) :: m)
    else (k, c) :: Memory.write m a b

/-- The form from address `lo` on: strictly rising addresses of the address space, no blank entry. -/
def Memory.wfFrom (lo : Nat) : Memory → Bool
  | [] => true
  | (k, b) :: m => decide (lo ≤ k) && decide (k < memSize) && b != Memory.blank && Memory.wfFrom (k + 1) m

/-- The canonical form of memory. -/
def Memory.wf (m : Memory) : Bool := Memory.wfFrom 0 m

/-- Address reduction, `a mod 4096` (R25). -/
def effAddr (a : Nat) : Nat := a % memSize

/-- `MemRead(a, 1)` (R26). -/
def State.memRead (s : State) (a : Nat) : Byte := s.mem.read (effAddr a)

/-- `MemWrite(a, 1, b)` (R26). -/
def State.memWrite (s : State) (a : Nat) (b : Byte) : State := { s with mem := s.mem.write (effAddr a) b }

/-- Store the bytes of a list at ascending addresses from `a`, in order (R26: a multi-byte transfer is a sequence of
single bytes). -/
def State.memWriteList (s : State) (a : Nat) : List Byte → State
  | [] => s
  | b :: bs => (s.memWrite a b).memWriteList (a + 1) bs

/-! ### Registers (10_state.md R12 to R18) -/

/-- Read `V[x]` (R12). -/
def State.getV (s : State) (x : Reg) : Byte := s.v[x.toNat]'x.isLt

/-- Write `V[x]` (R12). No register is hardwired. -/
def State.setV (s : State) (x : Reg) (b : Byte) : State := { s with v := s.v.set x.toNat b x.isLt }

/-- VF, the flag register (R13). -/
def regF : Reg := 0xF#4

/-- V0, which BNNN reads implicitly (R12). -/
def reg0 : Reg := 0x0#4

/-- Write I (R14). -/
def State.setI (s : State) (w : Word) : State := { s with i := w }

/-- Write PC (R15). -/
def State.setPc (s : State) (w : Word) : State := { s with pc := w }

/-- Write DT (R17). -/
def State.setDt (s : State) (b : Byte) : State := { s with dt := b }

/-- Write ST (R18). -/
def State.setSt (s : State) (b : Byte) : State := { s with st := b }

/-- Write the framebuffer (R20). -/
def State.setFb (s : State) (f : Framebuffer) : State := { s with fb := f }

/-! ### The framebuffer (10_state.md R20) -/

/-- `fb[x][y]`. -/
def Framebuffer.pixel (f : Framebuffer) (x y : Nat) : Bool :=
  (f[y % displayH]'(Nat.mod_lt y (by decide))).getLsbD (x % displayW)

/-- `fb[x][y] <- fb[x][y] ^ 1`. -/
def Framebuffer.flip (f : Framebuffer) (x y : Nat) : Framebuffer :=
  f.set (y % displayH)
    (f[y % displayH]'(Nat.mod_lt y (by decide)) ^^^ BitVec.twoPow 64 (x % displayW)) (Nat.mod_lt y (by decide))

/-- The framebuffer with every pixel 0. -/
def Framebuffer.clear : Framebuffer := Vector.replicate 32 0

/-- `fb[x][y]` of the state. -/
def State.pixel (s : State) (x y : Nat) : Bool := s.fb.pixel x y

/-! ### The call stack (10_state.md R16) -/

/-- Push `w`: the entry at SP is written and SP grows by one. `none` where SP is no index of the stack, which a state
that meets the invariant rules out while SP is below STACK_DEPTH. -/
def State.push (s : State) (w : Word) : Option State :=
  if s.sp < s.stack.length then some { s with stack := s.stack.set s.sp w, sp := s.sp + 1 } else none

/-- Pop: SP shrinks by one, the entry keeps its stale value, and the result is that entry. `none` where there is no
such entry, which a state that meets the invariant rules out while SP is above 0. -/
def State.pop (s : State) : Option (Word × State) :=
  match s.stack[s.sp - 1]? with
  | some w => some (w, { s with sp := s.sp - 1 })
  | none => none

/-! ### The fetch and PC (30_encoding.md R42, 41_control_flow.md R51) -/

/-- The instruction word at address `p`: two bytes, big-endian (R42, 20_memory.md R27). -/
def State.wordAt (s : State) (p : Nat) : Word := joinBytes (s.memRead p) (s.memRead (p + 1))

/-- The word the next fetch reads. -/
def State.fetchWord (s : State) : Word := s.wordAt s.pc.toNat

/-- The state right after the fetch: PC advanced by 2 modulo 2^16, nothing else (R42). -/
def State.advance (s : State) : State := s.setPc (s.pc + 2)

/-- The address of the instruction in execution: PC holds that address plus 2 (10_state.md R15). -/
def State.insAddr (s : State) : Word := s.pc - 2

/-- `skip`: `PC <- (PC + 2) mod 2^16` (R51). -/
def State.skip (s : State) : State := s.setPc (s.pc + 2)

/-- `if c then skip`. -/
def State.skipIf (s : State) (c : Bool) : State := if c then s.skip else s

/-! ### The random draw (42_alu.md R73, log 4) -/

/-- The byte of this draw: the one the host supplied with STEP, else a free value. -/
def State.drawnByte (s : State) : Byte := s.draw.getD (Config.freeByte s.drawCount)

/-- The draw is taken: the host's byte is used up and the next free draw is another one. -/
def State.drawTaken (s : State) : State := { s with draw := none, drawCount := s.drawCount + 1 }

/-! ### Error reports: the machine's only exceptions (60_exceptions.md R89 to R97) -/

/-- The numeric code of an error kind (R89). -/
def errorCode : ErrorKind → Nat
  | .unknownInstruction => 1
  | .stackUnderflow => 2
  | .stackOverflow => 3
  | .outOfBoundsAccess => 4

/-- The policy for an error kind (R97). -/
def policyFor (p : ErrorPolicy) : ErrorKind → HostAction
  | .unknownInstruction => p.unknownInstruction
  | .stackUnderflow => p.stackUnderflow
  | .stackOverflow => p.stackOverflow
  | .outOfBoundsAccess => p.outOfBoundsAccess

/-- The halted mark after a report: set where the policy for the kind is `halt` (R97). -/
def haltMark (s : State) (r : ErrorReport) : Option ErrorReport :=
  match policyFor s.cfg.errorPolicy r.kind with
  | .halt => some r
  | .carryOn => s.halted

/-- The report becomes the value STEP returns, and under `halt` it is recorded in the sticky mark; nothing else
changes (R96, R97). -/
def State.reported (s : State) (r : ErrorReport) : State := { s with response := .report r, halted := haltMark s r }

/-- `raise E(ins, addr)`: the instruction ends, and the host is told (00_scope.md R9, 60_exceptions.md R96). The one
shared operation for taking an error; the state it is given is the one the error's rule (R91 to R93) leaves. There
is no return from it: the host's next STEP, or RESET, resumes (R98). -/
def raise (k : ErrorKind) (ins addr : Word) (s : State) : Host.Outcome State Fault Refusal :=
  .next (s.reported ⟨k, ins, addr⟩)

/-- `OutOfBoundsAccess`: a model fault that ends the run (R94). -/
def outOfBounds (ins addr : Word) : Host.Outcome State Fault Refusal :=
  .fault (.outOfBoundsAccess ⟨.outOfBoundsAccess, ins, addr⟩)

end Sys2Proof.Machine
end

