-- ==== Sys2Proof/Machine/Flags.lean ====
section
/-! DEFINITION. Every flag computation of the ISA (42_alu.md R61, R68 to R72, R74) and the order of the two writes. -/

namespace Sys2Proof.Machine

/-- `[c]`: 1 where the condition holds, else 0 (00_scope.md R7). -/
def flagByte (c : Bool) : Byte := if c then 1 else 0

/-- The carry out of 8XY4: the unreduced sum exceeds 255 (R68). -/
def carryOut (a b : Byte) : Bool := decide (a.toNat + b.toNat > 255)

/-- Not borrow, of `a - b`: `a ≥ b` (R69, R71). -/
def notBorrow (a b : Byte) : Bool := decide (a.toNat ≥ b.toNat)

/-- The bit a right shift by one shifts out: bit 0 (R70). -/
def shiftedOutRight (a : Byte) : Bool := a.getLsbD 0

/-- The bit a left shift by one shifts out: bit 7 (R72). -/
def shiftedOutLeft (a : Byte) : Bool := a.getLsbD 7

/-- Write the result, then the flag: VF is written last, so it holds the flag when X = F (R61). -/
def State.setResultFlag (s : State) (x : Reg) (r : Byte) (c : Bool) : State := (s.setV x r).setV regF (flagByte c)

end Sys2Proof.Machine
end

