-- ==== Sys2Proof/Machine/Operands.lean ====
section
/-! DEFINITION. The operand forms (30_encoding.md R41): zero-extension, digits, key numbers and the register range. -/

namespace Sys2Proof.Machine

/-- `zext_16(NNN)` (R41). -/
def zextAddr (nnn : Addr12) : Word := nnn.setWidth 16

/-- An 8-bit value in 16 bits, high bits zero (R41). -/
def zextByte (b : Byte) : Word := b.setWidth 16

/-- The low nibble of a register, as a number 0..15: the digit of FX29, the key of EX9E and EXA1
(43_index_memory.md R77, 45_timers_keypad.md R83). -/
def lowNibble (b : Byte) : Nat := (b &&& 0x0F#8).toNat

/-- `key[k]` (10_state.md R19). -/
def State.keyDown (s : State) (k : Nat) : Bool := s.key[k]?.getD false

/-- The least pressed key, if any (45_timers_keypad.md R86). -/
def State.leastKey (s : State) : Option Nat := (List.range numKeys).find? (fun k => s.keyDown k)

/-- The address of the glyph of a digit: `(FONT_BASE + d * GLYPH_SIZE) mod 2^16` (43_index_memory.md R77). -/
def glyphAddr (fontBase digit : Nat) : Word := BitVec.ofNat 16 (fontBase + digit * glyphSize)

/-- The three decimal digits, hundreds first (43_index_memory.md R78). -/
def bcdDigits (b : Byte) : List Byte :=
  [BitVec.ofNat 8 (b.toNat / 100), BitVec.ofNat 8 (b.toNat / 10 % 10), BitVec.ofNat 8 (b.toNat % 10)]

/-- The values of V0..VX, X + 1 of them, V0 first (43_index_memory.md R79). -/
def State.regList (s : State) (x : Reg) : List Byte :=
  (List.range (x.toNat + 1)).map (fun k => s.getV (BitVec.ofNat 4 k))

/-- `V[k] <- MemRead(a + k, 1)` for k from 0, `n` registers, ascending (43_index_memory.md R80). -/
def State.loadRegs (s : State) (a : Nat) : Nat → State
  | 0 => s
  | n + 1 => (s.loadRegs a n).setV (BitVec.ofNat 4 n) (s.memRead (a + n))

end Sys2Proof.Machine
end

