-- ==== Sys2Proof/Machine/ControlFlow.lean ====
section
/-! DEFINITION. Control transfer, skips and the call stack (41_control_flow.md). Every meaning runs on the post-fetch
state: PC holds the instruction's address plus 2 (30_encoding.md R42, R44). -/

namespace Sys2Proof.Machine

/-- SYS `0NNN` (R52): under SYS_POLICY = unknown it raises UnknownInstruction, under nop it does nothing more. -/
def execSys (nnn : Addr12) (s : State) : Host.Outcome State Fault Refusal :=
  match s.cfg.sysPolicy with
  | .unknown => raise .unknownInstruction (encode (.sys nnn)) s.insAddr s
  | .nop => .next s

/-- RET `00EE` (R53): with an empty stack PC goes to PROGRAM_START and StackUnderflow is raised (60_exceptions.md R92). -/
def execRet (s : State) : Host.Outcome State Fault Refusal :=
  if s.sp = 0 then raise .stackUnderflow (encode .ret) s.insAddr (s.setPc programStart)
  else
    match s.pop with
    | some (w, t) => .next (t.setPc w)
    | none => outOfBounds (encode .ret) s.insAddr

/-- JP `1NNN` (R54). -/
def execJp (nnn : Addr12) (s : State) : Host.Outcome State Fault Refusal := .next (s.setPc (zextAddr nnn))

/-- CALL `2NNN` (R55): with a full stack StackOverflow is raised and nothing is pushed (60_exceptions.md R93). -/
def execCall (nnn : Addr12) (s : State) : Host.Outcome State Fault Refusal :=
  if s.sp = s.cfg.stackDepth then raise .stackOverflow (encode (.call nnn)) s.insAddr s
  else
    match s.push s.pc with
    | some t => .next (t.setPc (zextAddr nnn))
    | none => outOfBounds (encode (.call nnn)) s.insAddr

/-- SE `3XNN` (R56). -/
def execSeByte (x : Reg) (nn : Byte) (s : State) : Host.Outcome State Fault Refusal :=
  .next (s.skipIf (s.getV x == nn))

/-- SNE `4XNN` (R57). -/
def execSneByte (x : Reg) (nn : Byte) (s : State) : Host.Outcome State Fault Refusal :=
  .next (s.skipIf (s.getV x != nn))

/-- SE `5XY0` (R58). -/
def execSeReg (x y : Reg) (s : State) : Host.Outcome State Fault Refusal :=
  .next (s.skipIf (s.getV x == s.getV y))

/-- SNE `9XY0` (R59). -/
def execSneReg (x y : Reg) (s : State) : Host.Outcome State Fault Refusal :=
  .next (s.skipIf (s.getV x != s.getV y))

/-- JP V0 `BNNN` (R60): the sum is not reduced to 12 bits. -/
def execJpV0 (nnn : Addr12) (s : State) : Host.Outcome State Fault Refusal :=
  .next (s.setPc (zextAddr nnn + zextByte (s.getV reg0)))

end Sys2Proof.Machine
end

