-- ==== Sys2Proof/Machine/Display.lean ====
section
/-! DEFINITION. Display clear and the XOR-blit engine (44_display.md). The blit carries the framebuffer and the
collision seen so far. -/

namespace Sys2Proof.Machine

/-- One set sprite bit at pixel (px, py): a set pixel turned off is a collision, and the pixel is flipped (R82). -/
def plotPixel (acc : Framebuffer × Bool) (px py : Nat) : Framebuffer × Bool :=
  (acc.1.flip px py, acc.2 || acc.1.pixel px py)

/-- The first `n` columns of one sprite row, bit 7 at column 0, at (x0, y); coordinates wrap (R82). -/
def blitCols (row : Byte) (x0 y : Nat) (acc : Framebuffer × Bool) : Nat → Framebuffer × Bool
  | 0 => acc
  | c + 1 =>
    if row.getLsbD (7 - c) then plotPixel (blitCols row x0 y acc c) ((x0 + c) % displayW) (y % displayH)
    else blitCols row x0 y acc c

/-- The first `n` rows of the sprite at I, rows ascending (R82). -/
def blitRows (s : State) (x0 y0 : Nat) : Nat → Framebuffer × Bool
  | 0 => (s.fb, false)
  | r + 1 => blitCols (s.memRead (s.i.toNat + r)) x0 (y0 + r) (blitRows s x0 y0 r) spriteW

/-- CLS `00E0` (R81). -/
def execCls (s : State) : Host.Outcome State Fault Refusal := .next (s.setFb Framebuffer.clear)

/-- DRW `DXYN` (R82): VX and VY are read before VF is written; VF is 1 on a collision, else 0. -/
def execDrw (x y : Reg) (n : BitVec 4) (s : State) : Host.Outcome State Fault Refusal :=
  .next ((s.setFb (blitRows s (s.getV x).toNat (s.getV y).toNat n.toNat).1).setV regF
    (flagByte (blitRows s (s.getV x).toNat (s.getV y).toNat n.toNat).2))

end Sys2Proof.Machine
end

