-- ==== Sys2Proof/Machine/IndexMemory.lean ====
section
/-! DEFINITION. The index register, font lookup, BCD and register transfer (43_index_memory.md). -/

namespace Sys2Proof.Machine

/-- LD I `ANNN` (R75). -/
def execLdI (nnn : Addr12) (s : State) : Host.Outcome State Fault Refusal := .next (s.setI (zextAddr nnn))

/-- ADD I `FX1E`, no flag (R76). -/
def execAddI (x : Reg) (s : State) : Host.Outcome State Fault Refusal := .next (s.setI (s.i + zextByte (s.getV x)))

/-- LD F `FX29` (R77). -/
def execLdF (x : Reg) (s : State) : Host.Outcome State Fault Refusal :=
  .next (s.setI (glyphAddr s.cfg.fontBase (lowNibble (s.getV x))))

/-- LD B `FX33` (R78): the digits at I, I+1, I+2. -/
def execLdB (x : Reg) (s : State) : Host.Outcome State Fault Refusal :=
  .next (s.memWriteList s.i.toNat (bcdDigits (s.getV x)))

/-- LD [I] `FX55` (R79): V0..VX inclusive, I unchanged. -/
def execLdMemVx (x : Reg) (s : State) : Host.Outcome State Fault Refusal :=
  .next (s.memWriteList s.i.toNat (s.regList x))

/-- LD Vx, [I] `FX65` (R80): V0..VX inclusive, I unchanged. -/
def execLdVxMem (x : Reg) (s : State) : Host.Outcome State Fault Refusal :=
  .next (s.loadRegs s.i.toNat (x.toNat + 1))

end Sys2Proof.Machine
end

