-- ==== Sys2Proof/Machine/HostInterface.lean ====
section
/-! DEFINITION. The host's commands (60_exceptions.md R101 to R107, 70_reset_and_hazards.md R109 to R113): what each one
does and returns. Every command is atomic (R105). -/

namespace Sys2Proof.Machine

/-- The value the command returns. -/
def State.respond (s : State) (r : Response) : State := { s with response := r }

/-- RESET (70_reset_and_hazards.md R109): every element of the tuple to its reset value, the halted mark cleared, a new
run. The parameters and the random source are configuration, which RESET does not touch. -/
def resetCommand (s : State) : State := State.resetWith s.cfg s.drawCount s.inputs

/-- LOAD_FONT (R112): admitted only between RESET and the first STEP. -/
def loadFont (g : Vector Byte 80) (s : State) : Host.Outcome State Fault Refusal :=
  if s.started then .refused .loadAfterStep
  else .next ((s.memWriteList s.cfg.fontBase g.toList).respond .empty)

/-- LOAD_PROGRAM (R113): admitted only between RESET and the first STEP; an oversized image is refused. -/
def loadProgram (image : List Byte) (s : State) : Host.Outcome State Fault Refusal :=
  if s.started then .refused .loadAfterStep
  else if image.length > maxImage then .refused .imageTooLarge
  else .next ((s.memWriteList programStart.toNat image).respond .empty)

/-- SET_KEYS (R106): all 16 key states at once. -/
def setKeys (keys : Vector Bool 16) (s : State) : State := { s with key := keys, response := .empty }

/-- A timer counts toward zero, never below (R101). -/
def countDown (b : Byte) : Byte := if b = 0 then 0 else b - 1

/-- TICK (R101): both timers, independently. -/
def tick (s : State) : State := ((s.setDt (countDown s.dt)).setSt (countDown s.st)).respond .empty

/-- `sound_active = (ST ≠ 0)` (R103). -/
def State.soundActive (s : State) : Bool := s.st != 0

/-- The sound-stop edge between two states: ST went from non-zero to 0 (R103). DESIGN CHOICE (log 15): it compares the two
ST values alone, so a RESET that clears a non-zero ST is an edge too, where R103 names TICK and FX18 as causes and does
not speak of RESET. -/
def soundStopEdge (old new : State) : Bool := old.soundActive && !new.soundActive

/-- READ_FB (R107): pixel (x, y) at index y * 64 + x. -/
def State.readFb (s : State) : Vector Bool 2048 := Vector.ofFn (fun k => s.pixel (k.val % 64) (k.val / 64))

/-- SNAPSHOT (R104): the whole tuple of 10_state.md R11. -/
def State.snapshot (s : State) : Snapshot where
  v := s.v
  i := s.i
  pc := s.pc
  sp := s.sp
  stack := s.stack
  dt := s.dt
  st := s.st
  key := s.key
  fb := s.fb
  mem := s.mem

/-- STEP begins: the run has started, the host's draw is at hand, and the status is OK until an error is raised
(30_encoding.md R45). -/
def State.beginStep (s : State) (draw : Option Byte) : State := { s with started := true, draw := draw, response := .ok }

/-- The post-fetch state of a STEP (R42, R45). -/
def State.postFetch (s : State) (draw : Option Byte) : State := (s.beginStep draw).advance

/-- STEP (R45): refused while halted (60_exceptions.md R97); else fetch, decode, and run the handler on the post-fetch
state, or raise UnknownInstruction with the raw word and its address (R91). -/
def stepCommand (draw : Option Byte) (s : State) : Host.Outcome State Fault Refusal :=
  match s.halted with
  | some r => .refused (.stepHalted r)
  | none =>
    match decode s.cfg.strict59 s.fetchWord with
    | .ok i => exec i (s.postFetch draw)
    | .error _ => raise .unknownInstruction s.fetchWord s.pc (s.postFetch draw)

/-- One host command (R104). -/
def command (c : Command) (s : State) : Host.Outcome State Fault Refusal :=
  match c with
  | .reset => .next (resetCommand s)
  | .loadFont g => loadFont g s
  | .loadProgram image => loadProgram image s
  | .setKeys keys => .next (setKeys keys s)
  | .step draw => stepCommand draw s
  | .tick => .next (tick s)
  | .readFb => .next (s.respond (.pixels s.readFb))
  | .readTimers => .next (s.respond (.timers s.dt s.st s.soundActive))
  | .takeSnapshot => .next (s.respond (.snapshot s.snapshot))

/-- The host's next command: the oldest one waiting, or a STEP with no draw supplied where none waits (R102, log 6). -/
def State.nextCommand (s : State) : Command := s.inputs.head?.getD (.step none)

/-- The state as the next command finds it: that command no longer waits. -/
def State.dequeue (s : State) : State := { s with inputs := s.inputs.tail }

/-- No command waits and no halt mark stands, so that the next command is a STEP that runs. -/
def State.readyForStep (s : State) : State := { s with inputs := [], halted := none }

/-- The state with a table word's bytes at PC, as the fetch reads them, the high byte first, ready for a STEP (log 5). -/
def State.placeWord (s : State) (w : Word) : State :=
  (s.memWriteList s.pc.toNat [highByte w, lowByte w]).readyForStep

end Sys2Proof.Machine
end

