-- ==== Sys2Proof/Machine/Step.lean ====
section
/-! DEFINITION. One step of the machine: one host command, atomic (60_exceptions.md R104, R105). -/

namespace Sys2Proof.Machine

/-- One step: the host's next command is performed. Where no command waits it is STEP (log 6). -/
def step (s : State) : Host.Outcome State Fault Refusal := command s.nextCommand s.dequeue

/-- `s` with the instruction whose table bits are `w` placed where the next step fetches it. This stands for the load
of a program from outside, LOAD_PROGRAM (70_reset_and_hazards.md R113, log 5). -/
def State.withFetchWord (s : State) (nbits w : Nat) : State := s.placeWord (tableWord nbits w)

end Sys2Proof.Machine
end

