-- ==== Sys2Proof/Safety.lean ====
section
/-! DEFINITION. The terms claims are stated in: the invariant of a safe state, the components of the state with what it
means that one is unchanged, and what it means that a mask and match decode to an instruction. -/

namespace Sys2Proof.Machine

/-- What holds of every state a run from RESET reaches: parameters in their ranges (00_scope.md R5), memory in its
canonical form, a stack of STACK_DEPTH entries with SP at most STACK_DEPTH (10_state.md R16), and a halted mark only
where a STEP has run and the policy for its kind is `halt` (60_exceptions.md R97). -/
structure State.Inv (s : State) : Prop where
  cfg_wf : s.cfg.wf = true
  mem_wf : s.mem.wf = true
  stack_length : s.stack.length = s.cfg.stackDepth
  sp_le : s.sp ≤ s.cfg.stackDepth
  halted_started : s.halted ≠ none → s.started = true
  halted_policy : ∀ r, s.halted = some r → policyFor s.cfg.errorPolicy r.kind = .halt
  halted_kind : ∀ r, s.halted = some r → r.kind ≠ .outOfBoundsAccess

/-- The components of the state, down to one register, stack entry, key, pixel or byte. -/
inductive Component where
  | v (x : Reg)
  | i
  | pc
  | sp
  | stack (k : Nat)
  | dt
  | st
  | key (k : Nat)
  | pixel (x y : Nat)
  /-- the byte an access at address `a` reaches, `a` reduced modulo 4096 -/
  | mem (a : Nat)
  | cfg
  | started
  | halted
  | response
  | draw
  | drawCount
  | inputs
  deriving DecidableEq, Repr

/-- The component has the same value in both states, read as the model reads it. -/
def Component.same (s t : State) : Component → Prop
  | .v x => t.getV x = s.getV x
  | .i => t.i = s.i
  | .pc => t.pc = s.pc
  | .sp => t.sp = s.sp
  | .stack k => t.stack[k]? = s.stack[k]?
  | .dt => t.dt = s.dt
  | .st => t.st = s.st
  | .key k => t.keyDown k = s.keyDown k
  | .pixel x y => t.pixel x y = s.pixel x y
  | .mem a => t.memRead a = s.memRead a
  | .cfg => t.cfg = s.cfg
  | .started => t.started = s.started
  | .halted => t.halted = s.halted
  | .response => t.response = s.response
  | .draw => t.draw = s.draw
  | .drawCount => t.drawCount = s.drawCount
  | .inputs => t.inputs = s.inputs

/-- FRAME: from `s` to `t` nothing changes but, possibly, the components of `touched`. -/
def KeepsAllBut (touched : Component → Prop) (s t : State) : Prop := ∀ c : Component, ¬ touched c → c.same s t

/-- The component is a byte of memory of the `n` bytes from address `a` on, each address reduced modulo 4096
(20_memory.md R25). -/
def inBytes (a n : Nat) (c : Component) : Prop := ∃ k, k < n ∧ ∃ b, c = .mem b ∧ effAddr b = effAddr (a + k)

/-- Every word with `ins & mask = match` decodes to `f ins`, whatever STRICT_5_9 is (30_encoding.md R43). -/
def Decodes (mask pattern : Word) (f : Word → Instr) : Prop :=
  ∀ (strict : Bool) (ins : Word), ins &&& mask = pattern → decode strict ins = .ok (f ins)

/-- Pixel (px, py) is one the sprite covers with a set bit: column `c` of row `r`, both counted from the origin
(x0, y0) with wrap, and bit `7 - c` of the sprite's row `r` is 1 (44_display.md R82). -/
def spriteCovers (s : State) (x0 y0 n px py : Nat) : Prop :=
  ∃ r c, r < n ∧ c < 8 ∧ (x0 + c) % 64 = px % 64 ∧ (y0 + r) % 32 = py % 32 ∧
    (s.memRead (s.i.toNat + r)).getLsbD (7 - c) = true

/-- An error report as the host receives it: `t` is `s` with the report returned, and with the halted mark set where
the policy for the kind is `halt` and as it was where it is `continue` (60_exceptions.md R90, R96, R97). -/
def ReportedFrom (k : ErrorKind) (ins addr : Word) (s t : State) : Prop :=
  t.response = .report ⟨k, ins, addr⟩ ∧
  (policyFor s.cfg.errorPolicy k = .halt → t.halted = some ⟨k, ins, addr⟩) ∧
  (policyFor s.cfg.errorPolicy k = .carryOn → t.halted = s.halted)

end Sys2Proof.Machine
end

