-- ==== Sys2Proof/Certificates/Slice0/Obligations.lean ====
section
/-! DEFINITION. The statements about the machine, for the provers. Each says which sentences of spec/ it formalises.
`KeepsAllBut` is the frame of Safety.lean: it names all that may change. Every meaning runs on the post-fetch state, so
`s.pc` there is the instruction's address plus 2 (10_state.md R15). -/

open Sys2Proof Sys2Proof.Machine

/-! ## Encoding -/

/-- Words written out from the rows of 30_encoding.md R43, at least one of each of the sixteen families, decode to their
instructions, and 0xFFFF is UNKNOWN. -/
def Obligations.SampleWordsDecode : Prop :=
  decode true 0x0123#16 = .ok (.sys 0x123#12) ∧
  decode true 0x00E0#16 = .ok .cls ∧
  decode true 0x00EE#16 = .ok .ret ∧
  decode true 0x1ABC#16 = .ok (.jp 0xABC#12) ∧
  decode true 0x2400#16 = .ok (.call 0x400#12) ∧
  decode true 0x3A05#16 = .ok (.seByte 0xA#4 0x05#8) ∧
  decode true 0x4B7E#16 = .ok (.sneByte 0xB#4 0x7E#8) ∧
  decode true 0x5120#16 = .ok (.seReg 0x1#4 0x2#4) ∧
  decode true 0x6A5C#16 = .ok (.ldByte 0xA#4 0x5C#8) ∧
  decode true 0x7C10#16 = .ok (.addByte 0xC#4 0x10#8) ∧
  decode true 0x8AB7#16 = .ok (.subn 0xA#4 0xB#4) ∧
  decode true 0x9DE0#16 = .ok (.sneReg 0xD#4 0xE#4) ∧
  decode true 0xA2F0#16 = .ok (.ldI 0x2F0#12) ∧
  decode true 0xBFFF#16 = .ok (.jpV0 0xFFF#12) ∧
  decode true 0xC30F#16 = .ok (.rnd 0x3#4 0x0F#8) ∧
  decode true 0xD125#16 = .ok (.drw 0x1#4 0x2#4 0x5#4) ∧
  decode true 0xE5A1#16 = .ok (.sknp 0x5#4) ∧
  decode true 0xF365#16 = .ok (.ldVxMem 0x3#4) ∧
  decode true 0xFFFF#16 = .error .unknownF

/-- 30_encoding.md R40: the fields stand at their bit positions, X = bits 8-11, Y = bits 4-7, N = bits 0-3,
NN = bits 0-7, NNN = bits 0-11, the family in bits 12-15, each an unsigned number. -/
def Obligations.FieldsStandAtTheirBits : Prop :=
  ∀ ins : Word,
    (fieldOp ins).toNat = ins.toNat / 4096 ∧
    (fieldX ins).toNat = ins.toNat / 256 % 16 ∧
    (fieldY ins).toNat = ins.toNat / 16 % 16 ∧
    (fieldN ins).toNat = ins.toNat % 16 ∧
    (fieldNN ins).toNat = ins.toNat % 256 ∧
    (fieldNNN ins).toNat = ins.toNat % 4096

/-- Decode and encode agree (30_encoding.md, Format and Decode): the word of every well-formed instruction, and its two
bytes, decode to that instruction, whatever STRICT_5_9 is. -/
def Obligations.DecodeOfEncodeIsTheInstruction : Prop :=
  ∀ (strict : Bool) (i : Instr), i.wf = true →
    decode strict (encode i) = .ok i ∧ ∀ rest, decodeBytes strict (encodeBytes i ++ rest) = .ok (i, rest)

/-- The other direction, under STRICT_5_9: a word that decodes is the encoding of what it decodes to, which is well
formed; so each word has one meaning and no bit of it is dropped (30_encoding.md, Decode). -/
def Obligations.EncodeOfDecodeIsTheWord : Prop :=
  ∀ (ins : Word) (i : Instr), decode true ins = .ok i → encode i = ins ∧ i.wf = true

/-- 30_encoding.md, Reserved, illegal and hint encodings: the UNKNOWN words are exactly the reserved ones of each
family, under either value of STRICT_5_9; families 0 to 4, 6, 7 and A to D have none. -/
def Obligations.UnknownWordsAreTheReservedOnes : Prop :=
  ∀ (strict : Bool) (ins : Word), (∃ e, decode strict ins = .error e) ↔
    ((ins.toNat / 4096 = 5 ∧ ins.toNat % 16 ≠ 0 ∧ strict = true) ∨
     (ins.toNat / 4096 = 8 ∧ 8 ≤ ins.toNat % 16 ∧ ins.toNat % 16 ≠ 0xE) ∨
     (ins.toNat / 4096 = 9 ∧ ins.toNat % 16 ≠ 0 ∧ strict = true) ∨
     (ins.toNat / 4096 = 0xE ∧ ins.toNat % 256 ∉ [0x9E, 0xA1]) ∨
     (ins.toNat / 4096 = 0xF ∧ ins.toNat % 256 ∉ [0x07, 0x0A, 0x15, 0x18, 0x1E, 0x29, 0x33, 0x55, 0x65]))

/-- 30_encoding.md, the opcode map (STRICT_5_9 = true): a word of a row, by mask and match, decodes to an instruction of
that row, but that the exact rows CLS and RET win over SYS; and a word decodes only to an instruction whose row it is
of. -/
def Obligations.DecodeFollowsTheOpcodeMap : Prop :=
  (∀ (i : Instr) (ins : Word), ins &&& i.rowMaskMatch.1 = i.rowMaskMatch.2 →
    (i.mnemonic = "SYS" ∧ (ins = 0x00E0#16 ∨ ins = 0x00EE#16)) ∨
    ∃ j, decode true ins = .ok j ∧ j.mnemonic = i.mnemonic) ∧
  (∀ (i : Instr) (ins : Word), decode true ins = .ok i → ins &&& i.rowMaskMatch.1 = i.rowMaskMatch.2)

/-! ## The step -/

/-- 30_encoding.md, Fetch: the fetch combines the bytes at PC and PC + 1, the first the high byte, and advances PC by 2.
That each address is reduced modulo 4096 is decision D2, and that PC counts modulo 2^16 is decision D4. The other
components that may differ are the model's bookkeeping of a STEP (logs 2, 3, 4). -/
def Obligations.FetchIsBigEndianAndAdvances : Prop :=
  ∀ (s : State) (d : Option Byte),
    s.fetchWord.toNat = 256 * (s.mem.read (s.pc.toNat % 4096)).toNat + (s.mem.read ((s.pc.toNat + 1) % 4096)).toNat ∧
    (s.postFetch d).pc.toNat = (s.pc.toNat + 2) % 65536 ∧
    KeepsAllBut (fun c => c = .pc ∨ c = .started ∨ c = .response ∨ c = .draw) s (s.postFetch d)

/-- A step runs the decoded instruction (30_encoding.md, Dispatch and the step): where the host's next command is STEP,
no halt mark stands and the word at PC decodes to `i`, the step is `exec i` on the post-fetch state. Whatever the mark
and the word at PC are, the step is the oldest waiting command, and STEP with no draw supplied where none waits. The
list of waiting commands is the model's own (log 6). -/
def Obligations.StepRunsTheDecodedInstruction : Prop :=
  (∀ (s : State) (i : Instr), s.halted = none → decode s.cfg.strict59 s.fetchWord = .ok i →
    (s.inputs = [] → step s = exec i (s.postFetch none)) ∧
    (∀ d q, s.inputs = .step d :: q → step s = exec i (({ s with inputs := q } : State).postFetch d))) ∧
  (∀ (s : State) (c : Command) (q : List Command), s.inputs = c :: q → step s = command c { s with inputs := q }) ∧
  (∀ s : State, s.inputs = [] → step s = command (.step none) s)

/-- 60_exceptions.md, Error kinds (state after UnknownInstruction: decision D7, the record D10, PC modulo 2^16 D4) and
Priority, reporting and return (the halted mark by policy: decision D11): an UNKNOWN word is reported with the raw word
and its address, PC is past it, and nothing else of the block changes. The fields that hold the response, the started
bit and the draw are the model's (logs 2, 3, 4). -/
def Obligations.UnknownWordIsReported : Prop :=
  ∀ (s : State) (d : Option Byte) (e : DecodeError), s.halted = none → decode s.cfg.strict59 s.fetchWord = .error e →
    ∃ t, command (.step d) s = .next t ∧ t.pc.toNat = (s.pc.toNat + 2) % 65536 ∧
      ReportedFrom .unknownInstruction s.fetchWord s.pc s t ∧
      KeepsAllBut (fun c => c = .pc ∨ c = .response ∨ c = .halted ∨ c = .started ∨ c = .draw) s t

/-- 60_exceptions.md, Error kinds (the record and its codes are decision D10) and Priority, reporting and return: a STEP
returns OK or one error record, which carries the raw word of the instruction and the address it was fetched from, of a
kind with code 1, 2 or 3, and the codes are 1 to 4. That the state holds the returned value is the model's (log 2). -/
def Obligations.EveryReportCarriesItsWordAndAddress : Prop :=
  (errorCode .unknownInstruction = 1 ∧ errorCode .stackUnderflow = 2 ∧ errorCode .stackOverflow = 3 ∧
    errorCode .outOfBoundsAccess = 4) ∧
  ∀ (s t : State) (d : Option Byte), command (.step d) s = .next t →
    t.response = .ok ∨
    ∃ r, t.response = .report r ∧ r.ins = s.fetchWord ∧ r.addr = s.pc ∧ errorCode r.kind ≤ 3

/-- 60_exceptions.md, Priority, reporting and return, the host error policy (decision D11): while the halted mark is set
every STEP is refused, TICK, SET_KEYS and the observations are admitted, and no step but one that performs RESET clears
the mark, or touches PC or a V register. -/
def Obligations.HaltedUntilReset : Prop :=
  ∀ (s : State) (r : ErrorReport), s.halted = some r →
    (∀ d, command (.step d) s = .refused (.stepHalted r)) ∧
    (∀ c keys, c ∈ [Command.tick, .setKeys keys, .readFb, .readTimers, .takeSnapshot] → ∃ t, command c s = .next t) ∧
    (∀ t, s.nextCommand ≠ .reset → step s = .next t → t.halted = some r ∧ t.pc = s.pc ∧ ∀ x, t.getV x = s.getV x)

/-- The model's placing of a word (log 5): the next fetch reads it, the next command is STEP, and nothing changes but
the two bytes at PC, the waiting commands and the halted mark. -/
def Obligations.PlacedWordIsFetchedNext : Prop :=
  ∀ (s : State) (w : Word), s.mem.wf = true →
    (s.withFetchWord 16 w.toNat).fetchWord = w ∧
    (s.withFetchWord 16 w.toNat).nextCommand = .step none ∧
    (s.withFetchWord 16 w.toNat).halted = none ∧
    (s.withFetchWord 16 w.toNat).mem.wf = true ∧
    KeepsAllBut (fun c => inBytes s.pc.toNat 2 c ∨ c = .inputs ∨ c = .halted) s (s.withFetchWord 16 w.toNat)

/-! ## Control flow -/

/-- 41_control_flow.md, SYS (decision D12): `0NNN` but for CLS and RET is SYS; under SYS_POLICY = unknown it raises
UnknownInstruction, under nop it has no effect beyond the fetch. What the report leaves is 60_exceptions.md, Error kinds
(the state D7, the record with word and address D10) and Priority, reporting and return (the halted mark by policy,
D11); the address is computed as PC - 2 (log 10). -/
def Obligations.SysFollowsItsPolicy : Prop :=
  (∀ (strict : Bool) (ins : Word), ins &&& 0xF000 = 0x0000 → ins ≠ 0x00E0 → ins ≠ 0x00EE →
    decode strict ins = .ok (.sys (fieldNNN ins))) ∧
  ∀ (nnn : Addr12) (s : State),
    (s.cfg.sysPolicy = .unknown → ∃ t, exec (.sys nnn) s = .next t ∧
      ReportedFrom .unknownInstruction (BitVec.ofNat 16 nnn.toNat) (s.pc - 2) s t ∧
      KeepsAllBut (fun c => c = .response ∨ c = .halted) s t) ∧
    (s.cfg.sysPolicy = .nop → exec (.sys nnn) s = .next s)

/-- 41_control_flow.md, Return (the recovery write of PC is decision D8, the separate stack D29): RET pops the top of the
stack into PC and leaves the entry in place; with an empty stack PC goes to 0x200 and StackUnderflow is raised. What the
report leaves is 60_exceptions.md, Error kinds (the record with word and address D10) and Priority, reporting and return
(the halted mark by policy, D11); the address is computed as PC - 2 (log 10). -/
def Obligations.ReturnPopsOrReports : Prop :=
  Decodes 0xFFFF 0x00EE (fun _ => .ret) ∧
  ∀ s : State,
    (s.sp = 0 → ∃ t, exec .ret s = .next t ∧ t.pc = 0x200#16 ∧
      ReportedFrom .stackUnderflow 0x00EE#16 (s.pc - 2) s t ∧
      KeepsAllBut (fun c => c = .pc ∨ c = .response ∨ c = .halted) s t) ∧
    (s.Inv → s.sp ≠ 0 → ∃ w t, s.stack[s.sp - 1]? = some w ∧ exec .ret s = .next t ∧ t.pc = w ∧ t.sp = s.sp - 1 ∧
      KeepsAllBut (fun c => c = .pc ∨ c = .sp) s t)

/-- 41_control_flow.md R54: JP sets PC to NNN, zero-extended; an odd or a low target is taken as is. -/
def Obligations.JumpSetsPc : Prop :=
  Decodes 0xF000 0x1000 (fun ins => .jp (fieldNNN ins)) ∧
  ∀ (nnn : Addr12) (s : State), ∃ t, exec (.jp nnn) s = .next t ∧ t.pc.toNat = nnn.toNat ∧
    KeepsAllBut (fun c => c = .pc) s t

/-- 41_control_flow.md, Jumps and call (the state after an overflow is decision D9, the depth of the stack D6, the separate
stack D29): CALL pushes the post-fetch PC and PC is NNN; with a full stack nothing is pushed and StackOverflow is
raised. What the report leaves is 60_exceptions.md, Error kinds (the record with word and address D10) and Priority,
reporting and return (the halted mark by policy, D11); the address is computed as PC - 2 (log 10). -/
def Obligations.CallPushesOrReports : Prop :=
  Decodes 0xF000 0x2000 (fun ins => .call (fieldNNN ins)) ∧
  ∀ (nnn : Addr12) (s : State),
    (s.sp = s.cfg.stackDepth → ∃ t, exec (.call nnn) s = .next t ∧
      ReportedFrom .stackOverflow (BitVec.ofNat 16 (0x2000 + nnn.toNat)) (s.pc - 2) s t ∧
      KeepsAllBut (fun c => c = .response ∨ c = .halted) s t) ∧
    (s.Inv → s.sp ≠ s.cfg.stackDepth → ∃ t, exec (.call nnn) s = .next t ∧ t.stack[s.sp]? = some s.pc ∧
      t.sp = s.sp + 1 ∧ t.pc.toNat = nnn.toNat ∧
      KeepsAllBut (fun c => c = .pc ∨ c = .sp ∨ c = .stack s.sp) s t)

/-- A RET right after a CALL comes back to the instruction after the call with the stack as deep as before
(41_control_flow.md, Return, and Jumps and call; the separate stack is decision D29). -/
def Obligations.ReturnUndoesCall : Prop :=
  ∀ (nnn : Addr12) (s t : State), s.Inv → s.sp ≠ s.cfg.stackDepth → exec (.call nnn) s = .next t →
    ∃ u, exec .ret t = .next u ∧ u.pc = s.pc ∧ u.sp = s.sp ∧ KeepsAllBut (fun c => c = .stack s.sp) s u

/-- 41_control_flow.md, Conditional skips, on an immediate: SE skips if V[X] = NN, SNE if not. That the skip wraps modulo
2^16 is decision D4. -/
def Obligations.SkipsAgainstAnImmediate : Prop :=
  Decodes 0xF000 0x3000 (fun ins => .seByte (fieldX ins) (fieldNN ins)) ∧
  Decodes 0xF000 0x4000 (fun ins => .sneByte (fieldX ins) (fieldNN ins)) ∧
  ∀ (x : Reg) (nn : Byte) (s : State),
    (∃ t, exec (.seByte x nn) s = .next t ∧
      t.pc.toNat = (if s.getV x = nn then (s.pc.toNat + 2) % 65536 else s.pc.toNat) ∧
      KeepsAllBut (fun c => c = .pc) s t) ∧
    (∃ t, exec (.sneByte x nn) s = .next t ∧
      t.pc.toNat = (if s.getV x ≠ nn then (s.pc.toNat + 2) % 65536 else s.pc.toNat) ∧
      KeepsAllBut (fun c => c = .pc) s t)

/-- 41_control_flow.md, conditional skips on two registers: SE skips if V[X] = V[Y], SNE if not. The low nibble must be
0 under STRICT_5_9 and is ignored otherwise (decision D13). That the skip wraps modulo 2^16 is decision D4. -/
def Obligations.SkipsAgainstARegister : Prop :=
  Decodes 0xF00F 0x5000 (fun ins => .seReg (fieldX ins) (fieldY ins)) ∧
  Decodes 0xF00F 0x9000 (fun ins => .sneReg (fieldX ins) (fieldY ins)) ∧
  (∀ ins : Word, ins &&& 0xF000 = 0x5000 → decode false ins = .ok (.seReg (fieldX ins) (fieldY ins))) ∧
  (∀ ins : Word, ins &&& 0xF000 = 0x9000 → decode false ins = .ok (.sneReg (fieldX ins) (fieldY ins))) ∧
  ∀ (x y : Reg) (s : State),
    (∃ t, exec (.seReg x y) s = .next t ∧
      t.pc.toNat = (if s.getV x = s.getV y then (s.pc.toNat + 2) % 65536 else s.pc.toNat) ∧
      KeepsAllBut (fun c => c = .pc) s t) ∧
    (∃ t, exec (.sneReg x y) s = .next t ∧
      t.pc.toNat = (if s.getV x ≠ s.getV y then (s.pc.toNat + 2) % 65536 else s.pc.toNat) ∧
      KeepsAllBut (fun c => c = .pc) s t)

/-- 41_control_flow.md, Jump with offset (decision D4): PC is NNN + V0, not reduced to 12 bits; the register is always
V0. -/
def Obligations.JumpWithOffsetAddsV0 : Prop :=
  Decodes 0xF000 0xB000 (fun ins => .jpV0 (fieldNNN ins)) ∧
  ∀ (nnn : Addr12) (s : State), ∃ t, exec (.jpV0 nnn) s = .next t ∧
    t.pc.toNat = nnn.toNat + (s.getV 0x0#4).toNat ∧ KeepsAllBut (fun c => c = .pc) s t

/-! ## Register loads, arithmetic, logic, shifts, random -/

/-- 42_alu.md R62 and R63: LD Vx, nn writes NN; ADD Vx, nn adds modulo 256 and writes no flag. -/
def Obligations.LoadAndAddImmediate : Prop :=
  Decodes 0xF000 0x6000 (fun ins => .ldByte (fieldX ins) (fieldNN ins)) ∧
  Decodes 0xF000 0x7000 (fun ins => .addByte (fieldX ins) (fieldNN ins)) ∧
  ∀ (x : Reg) (nn : Byte) (s : State),
    (∃ t, exec (.ldByte x nn) s = .next t ∧ t.getV x = nn ∧ KeepsAllBut (fun c => c = .v x) s t) ∧
    (∃ t, exec (.addByte x nn) s = .next t ∧ (t.getV x).toNat = ((s.getV x).toNat + nn.toNat) % 256 ∧
      KeepsAllBut (fun c => c = .v x) s t)

/-- 42_alu.md R64 to R67: the move, OR, AND and XOR write VX, bit by bit, and touch no flag. -/
def Obligations.MoveAndBitwiseWriteVx : Prop :=
  Decodes 0xF00F 0x8000 (fun ins => .ldReg (fieldX ins) (fieldY ins)) ∧
  Decodes 0xF00F 0x8001 (fun ins => .orReg (fieldX ins) (fieldY ins)) ∧
  Decodes 0xF00F 0x8002 (fun ins => .andReg (fieldX ins) (fieldY ins)) ∧
  Decodes 0xF00F 0x8003 (fun ins => .xorReg (fieldX ins) (fieldY ins)) ∧
  ∀ (x y : Reg) (s : State),
    (∃ t, exec (.ldReg x y) s = .next t ∧ t.getV x = s.getV y ∧ KeepsAllBut (fun c => c = .v x) s t) ∧
    (∃ t, exec (.orReg x y) s = .next t ∧
      (∀ k, k < 8 → (t.getV x).getLsbD k = ((s.getV x).getLsbD k || (s.getV y).getLsbD k)) ∧
      KeepsAllBut (fun c => c = .v x) s t) ∧
    (∃ t, exec (.andReg x y) s = .next t ∧
      (∀ k, k < 8 → (t.getV x).getLsbD k = ((s.getV x).getLsbD k && (s.getV y).getLsbD k)) ∧
      KeepsAllBut (fun c => c = .v x) s t) ∧
    (∃ t, exec (.xorReg x y) s = .next t ∧
      (∀ k, k < 8 → (t.getV x).getLsbD k = ((s.getV x).getLsbD k ^^ (s.getV y).getLsbD k)) ∧
      KeepsAllBut (fun c => c = .v x) s t)

/-- 42_alu.md, Add with carry: ADD Vx, Vy adds modulo 256 and leaves the carry in VF. That X = F leaves the carry alone
in VF, both operands read first and the flag written last, is decision D14. -/
def Obligations.AddSetsCarry : Prop :=
  Decodes 0xF00F 0x8004 (fun ins => .addReg (fieldX ins) (fieldY ins)) ∧
  ∀ (x y : Reg) (s : State), ∃ t, exec (.addReg x y) s = .next t ∧
    (x ≠ 0xF#4 → (t.getV x).toNat = ((s.getV x).toNat + (s.getV y).toNat) % 256) ∧
    (t.getV 0xF#4).toNat = (if (s.getV x).toNat + (s.getV y).toNat > 255 then 1 else 0) ∧
    KeepsAllBut (fun c => c = .v x ∨ c = .v 0xF#4) s t

/-- 42_alu.md, Subtracts and shifts: SUB and SUBN subtract modulo 256 and leave 'not borrow' in VF. That X = F leaves the
flag alone in VF, both operands read first and the flag written last, is decision D14. -/
def Obligations.SubtractsSetNotBorrow : Prop :=
  Decodes 0xF00F 0x8005 (fun ins => .sub (fieldX ins) (fieldY ins)) ∧
  Decodes 0xF00F 0x8007 (fun ins => .subn (fieldX ins) (fieldY ins)) ∧
  ∀ (x y : Reg) (s : State),
    (∃ t, exec (.sub x y) s = .next t ∧
      (x ≠ 0xF#4 → (t.getV x).toNat = (256 + (s.getV x).toNat - (s.getV y).toNat) % 256) ∧
      (t.getV 0xF#4).toNat = (if (s.getV x).toNat ≥ (s.getV y).toNat then 1 else 0) ∧
      KeepsAllBut (fun c => c = .v x ∨ c = .v 0xF#4) s t) ∧
    (∃ t, exec (.subn x y) s = .next t ∧
      (x ≠ 0xF#4 → (t.getV x).toNat = (256 + (s.getV y).toNat - (s.getV x).toNat) % 256) ∧
      (t.getV 0xF#4).toNat = (if (s.getV y).toNat ≥ (s.getV x).toNat then 1 else 0) ∧
      KeepsAllBut (fun c => c = .v x ∨ c = .v 0xF#4) s t)

/-- 42_alu.md, Subtracts and shifts: SHR and SHL shift VX by one, whatever Y is, and leave the bit shifted out, taken
before the shift, in VF. That X = F leaves the flag alone in VF, written last, is decision D14 (90_conflicts.md C4). -/
def Obligations.ShiftsCaptureTheBitShiftedOut : Prop :=
  Decodes 0xF00F 0x8006 (fun ins => .shr (fieldX ins) (fieldY ins)) ∧
  Decodes 0xF00F 0x800E (fun ins => .shl (fieldX ins) (fieldY ins)) ∧
  ∀ (x y : Reg) (s : State),
    (∃ t, exec (.shr x y) s = .next t ∧
      (x ≠ 0xF#4 → (t.getV x).toNat = (s.getV x).toNat / 2) ∧
      (t.getV 0xF#4).toNat = (s.getV x).toNat % 2 ∧
      KeepsAllBut (fun c => c = .v x ∨ c = .v 0xF#4) s t) ∧
    (∃ t, exec (.shl x y) s = .next t ∧
      (x ≠ 0xF#4 → (t.getV x).toNat = (s.getV x).toNat * 2 % 256) ∧
      (t.getV 0xF#4).toNat = (s.getV x).toNat / 128 ∧
      KeepsAllBut (fun c => c = .v x ∨ c = .v 0xF#4) s t)

/-- 42_alu.md, Random (decision D17): VX is the draw masked by NN, for every byte the host supplies, and for the free
value where it supplies none; NN = 0 gives 0 for every draw; each CXNN takes its own draw. How the draw stands in the
state is the model's choice (log 4). -/
def Obligations.RandomIsTheMaskedDraw : Prop :=
  Decodes 0xF000 0xC000 (fun ins => .rnd (fieldX ins) (fieldNN ins)) ∧
  ∀ (x : Reg) (nn : Byte) (s : State), ∃ t, exec (.rnd x nn) s = .next t ∧
    (∀ r, s.draw = some r → ∀ k, k < 8 → (t.getV x).getLsbD k = (r.getLsbD k && nn.getLsbD k)) ∧
    (s.draw = none → t.getV x = Config.freeByte s.drawCount &&& nn) ∧
    (nn = 0 → t.getV x = 0) ∧ t.draw = none ∧ t.drawCount = s.drawCount + 1 ∧
    KeepsAllBut (fun c => c = .v x ∨ c = .draw ∨ c = .drawCount) s t

/-! ## Index register, font, BCD, register transfer -/

/-- 43_index_memory.md R75: LD I, nnn sets I to NNN, high four bits 0. -/
def Obligations.LoadIndexSetsI : Prop :=
  Decodes 0xF000 0xA000 (fun ins => .ldI (fieldNNN ins)) ∧
  ∀ (nnn : Addr12) (s : State), ∃ t, exec (.ldI nnn) s = .next t ∧ t.i.toNat = nnn.toNat ∧
    KeepsAllBut (fun c => c = .i) s t

/-- 43_index_memory.md, ADD I, Vx (decision D5): I + VX modulo 2^16, and no flag. -/
def Obligations.AddIndexWrapsWithoutFlag : Prop :=
  Decodes 0xF0FF 0xF01E (fun ins => .addI (fieldX ins)) ∧
  ∀ (x : Reg) (s : State), ∃ t, exec (.addI x) s = .next t ∧
    t.i.toNat = (s.i.toNat + (s.getV x).toNat) % 65536 ∧ KeepsAllBut (fun c => c = .i) s t

/-- 43_index_memory.md, LD F, Vx (parameter FONT_BASE, decision D18): I is the address of the glyph of VX's low nibble,
and with FONT_BASE in its range it lies within the table. -/
def Obligations.FontLookupPointsAtTheGlyph : Prop :=
  Decodes 0xF0FF 0xF029 (fun ins => .ldF (fieldX ins)) ∧
  ∀ (x : Reg) (s : State), ∃ t, exec (.ldF x) s = .next t ∧
    t.i.toNat = (s.cfg.fontBase + (s.getV x).toNat % 16 * 5) % 65536 ∧
    (s.cfg.wf = true → s.cfg.fontBase ≤ t.i.toNat ∧ t.i.toNat ≤ s.cfg.fontBase + 75) ∧
    KeepsAllBut (fun c => c = .i) s t

/-- 43_index_memory.md, BCD (addresses wrap by decision D2): the hundreds, tens and ones digits of VX at I, I + 1,
I + 2, and no other byte. -/
def Obligations.BcdStoresThreeDigits : Prop :=
  Decodes 0xF0FF 0xF033 (fun ins => .ldB (fieldX ins)) ∧
  ∀ (x : Reg) (s : State), ∃ t, exec (.ldB x) s = .next t ∧
    (s.mem.wf = true →
      (t.memRead s.i.toNat).toNat = (s.getV x).toNat / 100 ∧
      (t.memRead (s.i.toNat + 1)).toNat = (s.getV x).toNat / 10 % 10 ∧
      (t.memRead (s.i.toNat + 2)).toNat = (s.getV x).toNat % 10) ∧
    KeepsAllBut (inBytes s.i.toNat 3) s t

/-- 43_index_memory.md, register dump (addresses wrap by decision D2): V0..VX inclusive at I, I + 1, ..., I + X, no
other byte, and I itself unmodified. -/
def Obligations.RegisterDumpStoresV0ToVx : Prop :=
  Decodes 0xF0FF 0xF055 (fun ins => .ldMemVx (fieldX ins)) ∧
  ∀ (x : Reg) (s : State), ∃ t, exec (.ldMemVx x) s = .next t ∧
    (s.mem.wf = true → ∀ y : Reg, y.toNat ≤ x.toNat → t.memRead (s.i.toNat + y.toNat) = s.getV y) ∧
    KeepsAllBut (inBytes s.i.toNat (x.toNat + 1)) s t

/-- 43_index_memory.md, register load (addresses wrap by decision D2): V0..VX inclusive from I, I + 1, ..., I + X, no
register above X, and I itself unmodified. -/
def Obligations.RegisterLoadReadsV0ToVx : Prop :=
  Decodes 0xF0FF 0xF065 (fun ins => .ldVxMem (fieldX ins)) ∧
  ∀ (x : Reg) (s : State), ∃ t, exec (.ldVxMem x) s = .next t ∧
    (∀ y : Reg, y.toNat ≤ x.toNat → t.getV y = s.memRead (s.i.toNat + y.toNat)) ∧
    KeepsAllBut (fun c => ∃ y : Reg, y.toNat ≤ x.toNat ∧ c = .v y) s t

/-- FX55 then FX65 with the same X and I, on the memory FX55 left, gives V0..VX back whatever the registers hold in
between (43_index_memory.md, Register dump and load; addresses wrap by decision D2). -/
def Obligations.LoadAfterDumpRestoresRegisters : Prop :=
  ∀ (x : Reg) (s t u : State), s.mem.wf = true → exec (.ldMemVx x) s = .next t → u.mem = t.mem → u.i = s.i →
    ∃ w, exec (.ldVxMem x) u = .next w ∧ ∀ y : Reg, y.toNat ≤ x.toNat → w.getV y = s.getV y

/-- Instruction-fetch coherence (20_memory.md, Ordering and synchronisation): a word FX55 stores is the word a later
fetch reads at that address, the register at the lower address its high byte. That addresses wrap, so that PC and I + y
meet modulo 4096, is decision D2. -/
def Obligations.FetchSeesAnEarlierStore : Prop :=
  ∀ (x y z : Reg) (s t : State), s.mem.wf = true → exec (.ldMemVx x) s = .next t →
    z.toNat = y.toNat + 1 → z.toNat ≤ x.toNat → t.pc.toNat % 4096 = (s.i.toNat + y.toNat) % 4096 →
    t.fetchWord.toNat = 256 * (s.getV y).toNat + (s.getV z).toNat

/-- The canonical form of memory makes equal memories equal data: two memories in that form that read alike are the same
list (20_memory.md, Address space; the form is the model's, log 8). -/
def Obligations.MemoriesThatReadAlikeAreEqual : Prop :=
  ∀ m n : Memory, m.wf = true → n.wf = true → (∀ a, a < 4096 → m.read a = n.read a) → m = n

/-! ## Display -/

/-- 44_display.md R81: CLS clears every pixel and changes nothing else. -/
def Obligations.ClearScreenClearsEveryPixel : Prop :=
  Decodes 0xFFFF 0x00E0 (fun _ => .cls) ∧
  ∀ s : State, ∃ t, exec .cls s = .next t ∧ (∀ px py, t.pixel px py = false) ∧
    KeepsAllBut (fun c => ∃ px py, c = .pixel px py) s t

/-- 44_display.md, Draw (bit 7 leftmost is decision D15, the operand order D14, the address wrap D2): a pixel the sprite
covers with a set bit is flipped, and nothing else changes but VF. -/
def Obligations.DrawFlipsTheCoveredPixels : Prop :=
  Decodes 0xF000 0xD000 (fun ins => .drw (fieldX ins) (fieldY ins) (fieldN ins)) ∧
  ∀ (x y : Reg) (n : BitVec 4) (s : State), ∃ t, exec (.drw x y n) s = .next t ∧
    (∀ px py, spriteCovers s (s.getV x).toNat (s.getV y).toNat n.toNat px py → t.pixel px py = !s.pixel px py) ∧
    KeepsAllBut (fun c => c = .v 0xF#4 ∨
      ∃ px py, c = .pixel px py ∧ spriteCovers s (s.getV x).toNat (s.getV y).toNat n.toNat px py) s t

/-- 44_display.md, Draw, the flag (decisions D2, D14 and D15 as in the statement before): VF is 1 if some covered pixel was set, that is, is turned off, and 0 otherwise, also
when no pixel changes. -/
def Obligations.DrawFlagIsCollision : Prop :=
  ∀ (x y : Reg) (n : BitVec 4) (s : State), ∃ t, exec (.drw x y n) s = .next t ∧
    ((∃ px py, spriteCovers s (s.getV x).toNat (s.getV y).toNat n.toNat px py ∧ s.pixel px py = true) →
      t.getV 0xF#4 = 1) ∧
    (¬ (∃ px py, spriteCovers s (s.getV x).toNat (s.getV y).toNat n.toNat px py ∧ s.pixel px py = true) →
      t.getV 0xF#4 = 0)

/-- XOR is its own inverse (44_display.md, Draw; decisions D2, D14, D15): drawing the same sprite at the same place on the
framebuffer the first draw left restores every pixel. The clause on VF is the model's reading (log 9, DEDUCED): by R82's
pseudocode VF after the second draw is 1 exactly where some covered pixel was clear before the first, while R82's
corner-case sentence says 1 whenever the sprite has a set bit. On a framebuffer clear under the sprite the two agree. -/
def Obligations.DrawingTwiceRestoresTheScreen : Prop :=
  ∀ (x y : Reg) (n : BitVec 4) (s t u : State), exec (.drw x y n) s = .next t →
    u.fb = t.fb → u.mem = s.mem → u.i = s.i → u.getV x = s.getV x → u.getV y = s.getV y →
    ∃ w, exec (.drw x y n) u = .next w ∧ (∀ px py, w.pixel px py = s.pixel px py) ∧
      (w.getV 0xF#4 = 1 ↔
        ∃ px py, spriteCovers s (s.getV x).toNat (s.getV y).toNat n.toNat px py ∧ s.pixel px py = false)

/-! ## Keypad and timers -/

/-- 45_timers_keypad.md, Keypad skips: SKP skips if the key of VX's low nibble is pressed, SKNP if it is not. That the skip
wraps modulo 2^16 is decision D4. -/
def Obligations.KeySkipsTestTheKeypad : Prop :=
  Decodes 0xF0FF 0xE09E (fun ins => .skp (fieldX ins)) ∧
  Decodes 0xF0FF 0xE0A1 (fun ins => .sknp (fieldX ins)) ∧
  ∀ (x : Reg) (s : State),
    (∃ t, exec (.skp x) s = .next t ∧
      t.pc.toNat = (if s.keyDown ((s.getV x).toNat % 16) = true then (s.pc.toNat + 2) % 65536 else s.pc.toNat) ∧
      KeepsAllBut (fun c => c = .pc) s t) ∧
    (∃ t, exec (.sknp x) s = .next t ∧
      t.pc.toNat = (if s.keyDown ((s.getV x).toNat % 16) = true then s.pc.toNat else (s.pc.toNat + 2) % 65536) ∧
      KeepsAllBut (fun c => c = .pc) s t)

/-- 45_timers_keypad.md R85: LD Vx, DT reads the delay timer. -/
def Obligations.ReadDelayTimer : Prop :=
  Decodes 0xF0FF 0xF007 (fun ins => .ldVxDt (fieldX ins)) ∧
  ∀ (x : Reg) (s : State), ∃ t, exec (.ldVxDt x) s = .next t ∧ t.getV x = s.dt ∧ KeepsAllBut (fun c => c = .v x) s t

/-- 45_timers_keypad.md, timer writes: LD DT, Vx and LD ST, Vx write one timer each. The sound-stop edge of writing 0
over a non-zero ST is decision D22. -/
def Obligations.SetTimers : Prop :=
  Decodes 0xF0FF 0xF015 (fun ins => .ldDtVx (fieldX ins)) ∧
  Decodes 0xF0FF 0xF018 (fun ins => .ldStVx (fieldX ins)) ∧
  ∀ (x : Reg) (s : State),
    (∃ t, exec (.ldDtVx x) s = .next t ∧ t.dt = s.getV x ∧ KeepsAllBut (fun c => c = .dt) s t) ∧
    (∃ t, exec (.ldStVx x) s = .next t ∧ t.st = s.getV x ∧
      (soundStopEdge s t = true ↔ s.st ≠ 0 ∧ s.getV x = 0) ∧ KeepsAllBut (fun c => c = .st) s t)

/-- 45_timers_keypad.md, LD Vx, K (the tie-break is decision D16, PC modulo 2^16 D4): with no key pressed PC goes back by 2 and nothing else
changes; with keys pressed VX is the least of them and execution goes on. -/
def Obligations.WaitForKeyRepeatsOrTakesTheLeast : Prop :=
  Decodes 0xF0FF 0xF00A (fun ins => .ldVxK (fieldX ins)) ∧
  ∀ (x : Reg) (s : State),
    ((∀ k, k < 16 → s.keyDown k = false) → ∃ t, exec (.ldVxK x) s = .next t ∧
      t.pc.toNat = (s.pc.toNat + 65534) % 65536 ∧ KeepsAllBut (fun c => c = .pc) s t) ∧
    (∀ k, k < 16 → s.keyDown k = true → (∀ j, j < k → s.keyDown j = false) → ∃ t, exec (.ldVxK x) s = .next t ∧
      (t.getV x).toNat = k ∧ KeepsAllBut (fun c => c = .v x) s t)

/-! ## Host commands -/

/-- 60_exceptions.md, The timer countdown unit: TICK counts both timers down by one, floored at 0, independently, and
changes nothing else; after n ticks in a row, with no other command between, a timer is n lower, floored at 0. The
response, empty for a command that returns no status, is the model's own (log 2). -/
def Obligations.TickCountsBothTimersDown : Prop :=
  (∀ s : State, ∃ t, command .tick s = .next t ∧ t.dt.toNat = s.dt.toNat - 1 ∧ t.st.toNat = s.st.toNat - 1 ∧
    t.response = .empty ∧ KeepsAllBut (fun c => c = .dt ∨ c = .st ∨ c = .response) s t) ∧
  ∀ (n : Nat) (s : State), (Nat.iterate tick n s).dt.toNat = s.dt.toNat - n ∧
    (Nat.iterate tick n s).st.toNat = s.st.toNat - n

/-- 60_exceptions.md, Host interface, and 10_state.md, Keypad: SET_KEYS replaces all 16 key states and nothing else, and no
step that performs another command but RESET changes a key: the core never writes the keypad. The empty response is the
model's own (log 2). -/
def Obligations.OnlyTheHostWritesKeys : Prop :=
  (∀ (keys : Vector Bool 16) (s : State), ∃ t, command (.setKeys keys) s = .next t ∧
    (∀ k, (h : k < 16) → t.keyDown k = keys[k]) ∧ t.response = .empty ∧
    KeepsAllBut (fun c => (∃ k, k < 16 ∧ c = .key k) ∨ c = .response) s t) ∧
  ∀ s t : State, step s = .next t → t.key ≠ s.key → s.nextCommand = .reset ∨ ∃ keys, s.nextCommand = .setKeys keys

/-- 70_reset_and_hazards.md, Boot, LOAD_FONT (a command of its own by decision D19, admitted only before the first STEP by
D20): the 80 bytes stand at FONT_BASE, and no other byte changes; after a STEP the load is refused. The started bit, the
form of memory and the empty response are the model's own (logs 3, 8, 2). -/
def Obligations.LoadFontStoresTheGlyphs : Prop :=
  ∀ (g : Vector Byte 80) (s : State),
    (s.started = false → ∃ t, command (.loadFont g) s = .next t ∧
      (s.mem.wf = true → ∀ k, (h : k < 80) → t.memRead (s.cfg.fontBase + k) = g[k]) ∧ t.response = .empty ∧
      KeepsAllBut (fun c => inBytes s.cfg.fontBase 80 c ∨ c = .response) s t) ∧
    (s.started = true → command (.loadFont g) s = .refused .loadAfterStep)

/-- 70_reset_and_hazards.md, Boot, LOAD_PROGRAM (decision D20): an image of at most 3584 bytes stands from 0x200 on, and no
other byte changes; a larger one is refused, and so is a load after a STEP. The started bit, the form of memory and the
empty response are the model's own (logs 3, 8, 2). -/
def Obligations.LoadProgramStoresTheImage : Prop :=
  ∀ (image : List Byte) (s : State),
    (s.started = false → image.length ≤ 3584 → ∃ t, command (.loadProgram image) s = .next t ∧
      (s.mem.wf = true → ∀ k, (h : k < image.length) → t.memRead (0x200 + k) = image[k]) ∧ t.response = .empty ∧
      KeepsAllBut (fun c => inBytes 0x200 image.length c ∨ c = .response) s t) ∧
    (s.started = false → 3584 < image.length → command (.loadProgram image) s = .refused .imageTooLarge) ∧
    (s.started = true → command (.loadProgram image) s = .refused .loadAfterStep)

/-- 70_reset_and_hazards.md, the boot sequence: the two loads touch disjoint ranges, so either order leaves the same
state. -/
def Obligations.BootLoadsCommute : Prop :=
  ∀ (g : Vector Byte 80) (image : List Byte) (s : State), s.Inv → s.started = false → image.length ≤ 3584 →
    ∃ a b t, command (.loadFont g) s = .next a ∧ command (.loadProgram image) a = .next t ∧
      command (.loadProgram image) s = .next b ∧ command (.loadFont g) b = .next t

/-- 70_reset_and_hazards.md, Reset: RESET sets every element of the tuple to its reset value and clears the halted mark,
from any state, and does not touch the random source. That memory is left all 0, with no font, is decision D19. The
clauses on fields that are not the spec's are the model's choices: the parameters, the waiting commands and the count of
draws stay (logs 1, 4, 6, 14), the response is empty (log 2), and the bit that says a STEP has run is cleared (log 3). -/
def Obligations.ResetSetsEveryElement : Prop :=
  ∀ s : State, ∃ t, command .reset s = .next t ∧
    (∀ x, t.getV x = 0) ∧ t.i = 0 ∧ t.pc = 0x200#16 ∧ t.sp = 0 ∧ t.stack.length = s.cfg.stackDepth ∧
    (∀ k, k < s.cfg.stackDepth → t.stack[k]? = some 0) ∧ t.dt = 0 ∧ t.st = 0 ∧ (∀ k, t.keyDown k = false) ∧
    (∀ px py, t.pixel px py = false) ∧ (∀ a, t.memRead a = 0) ∧ t.halted = none ∧ t.started = false ∧
    t.response = .empty ∧ t.cfg = s.cfg ∧ t.drawCount = s.drawCount ∧ t.inputs = s.inputs

/-- 60_exceptions.md, Host interface (the pixel order is decision D23) and The timer countdown unit (sound_active is D22):
READ_FB returns pixel (x, y) at index y * 64 + x, READ_TIMERS returns DT, ST and ST ≠ 0, SNAPSHOT returns the tuple;
none changes anything but the returned value, whose field is the model's own (log 2). -/
def Obligations.ObservationsChangeNothing : Prop :=
  ∀ s : State,
    (∃ t bits, command .readFb s = .next t ∧ t.response = .pixels bits ∧
      (∀ px py, px < 64 → py < 32 → bits[py * 64 + px]? = some (s.pixel px py)) ∧
      KeepsAllBut (fun c => c = .response) s t) ∧
    (∃ t b, command .readTimers s = .next t ∧ t.response = .timers s.dt s.st b ∧ (b = true ↔ s.st ≠ 0) ∧
      KeepsAllBut (fun c => c = .response) s t) ∧
    (∃ t, command .takeSnapshot s = .next t ∧
      t.response = .snapshot ⟨s.v, s.i, s.pc, s.sp, s.stack, s.dt, s.st, s.key, s.fb, s.mem⟩ ∧
      KeepsAllBut (fun c => c = .response) s t)

/-! ## The whole machine -/

/-- The state right after RESET meets the invariant, for every choice of the parameters within their ranges, and so does
the machine's reset state (00_scope.md, Implementation parameters; 70_reset_and_hazards.md, Reset). That the parameters
stand in the state is the model's choice (log 1); the canonical form of memory and the started bit in the invariant are
the model's reading (logs 8 and 3, DEDUCED). -/
def Obligations.ResetMeetsTheInvariant : Prop :=
  (∀ (c : Config) (n : Nat) (q : List Command), c.wf = true → (State.resetWith c n q).Inv) ∧ State.reset.Inv

/-- Every step, whatever command it performs, keeps the invariant: the parameters in range (00_scope.md, Implementation
parameters; log 1), STACK_DEPTH entries with SP at most STACK_DEPTH (10_state.md, Call stack and stack pointer; decisions
D6, D29), memory in its canonical form (log 8, DEDUCED), and a halted mark only where the policy asks for it
(60_exceptions.md, Priority, reporting and return; decision D11) and a STEP has run (the started bit: log 3, DEDUCED). -/
def Obligations.StepKeepsTheInvariant : Prop :=
  ∀ s t : State, s.Inv → step s = .next t → t.Inv

/-- 60_exceptions.md, Error kinds: OutOfBoundsAccess is never raised: from a state that meets the invariant no step ends
in a fault. The second and third clauses are the model's reading (log 11, DEDUCED): where SP and the stack do not fit
each other, RET and CALL stop with that fault, and never go on with a value. -/
def Obligations.NoStepGoesOutOfBounds : Prop :=
  (∀ (s : State) (f : Fault), s.Inv → step s ≠ .fault f) ∧
  (∀ s : State, s.sp ≠ 0 → s.stack[s.sp - 1]? = none → ∃ r, exec .ret s = .fault (.outOfBoundsAccess r)) ∧
  (∀ (nnn : Addr12) (s : State), s.sp ≠ s.cfg.stackDepth → s.stack.length ≤ s.sp →
    ∃ r, exec (.call nnn) s = .fault (.outOfBoundsAccess r))

/-- Each element of the state tuple has only the writers the data model names (10_state.md, General registers to Memory;
20_memory.md, the access table): memory FX33 and FX55, the framebuffer 00E0 and DXYN, the stack 2NNN, SP 2NNN and 00EE,
I ANNN, FX1E and FX29, DT FX15, ST FX18, PC the control transfers, skips and FX0A, a register V[x] those that name it in
their X field, FX65 from V0 up to its X, and for VF the six flag writers; the keypad and the parameters none. -/
def Obligations.EachElementHasOnlyItsWriters : Prop :=
  ∀ (i : Instr) (s t : State), exec i s = .next t →
    (t.mem ≠ s.mem → i.mnemonic ∈ ["LD_B", "LD_MEM_VX"]) ∧
    (t.fb ≠ s.fb → i.mnemonic ∈ ["CLS", "DRW"]) ∧
    (t.stack ≠ s.stack → i.mnemonic = "CALL") ∧
    (t.sp ≠ s.sp → i.mnemonic ∈ ["CALL", "RET"]) ∧
    (t.i ≠ s.i → i.mnemonic ∈ ["LD_I", "ADD_I", "LD_F"]) ∧
    (t.dt ≠ s.dt → i.mnemonic = "LD_DT_VX") ∧
    (t.st ≠ s.st → i.mnemonic = "LD_ST_VX") ∧
    (t.pc ≠ s.pc → i.mnemonic ∈ ["RET", "JP", "CALL", "SE_BYTE", "SNE_BYTE", "SE_REG", "SNE_REG", "JP_V0", "SKP",
      "SKNP", "LD_VX_K"]) ∧
    (∀ x : Reg, t.getV x ≠ s.getV x →
      (x = fieldX (encode i) ∧ i.mnemonic ∈ ["LD_BYTE", "ADD_BYTE", "LD_REG", "OR", "AND", "XOR", "ADD_REG", "SUB", "SHR",
        "SUBN", "SHL", "RND", "LD_VX_DT", "LD_VX_K"]) ∨
      (x.toNat ≤ (fieldX (encode i)).toNat ∧ i.mnemonic = "LD_VX_MEM") ∨
      (x = 0xF#4 ∧ i.mnemonic ∈ ["ADD_REG", "SUB", "SHR", "SUBN", "SHL", "DRW"])) ∧
    (t.getV 0xF#4 ≠ s.getV 0xF#4 →
      i.mnemonic ∈ ["ADD_REG", "SUB", "SHR", "SUBN", "SHL", "DRW"] ∨
      (fieldX (encode i) = 0xF#4 ∧ i.mnemonic ∈ ["LD_BYTE", "ADD_BYTE", "LD_REG", "OR", "AND", "XOR", "RND", "LD_VX_DT",
        "LD_VX_K", "LD_VX_MEM"])) ∧
    t.key = s.key ∧ t.cfg = s.cfg ∧ t.started = s.started ∧ t.inputs = s.inputs

/-- No step, whatever command it performs, changes the parameters, and it takes at most one draw: RESET touches neither
the configuration nor the random source (10_state.md, What is not state; the counter is the model's, log 4). -/
def Obligations.ParametersAndDrawsSurviveEveryStep : Prop :=
  ∀ s t : State, step s = .next t →
    t.cfg = s.cfg ∧ s.drawCount ≤ t.drawCount ∧ t.drawCount ≤ s.drawCount + 1

/-- The sound-stop edge, ST going from non-zero to 0 (60_exceptions.md, The timer countdown unit; decision D22): a TICK is
one exactly where ST was 1, and a step that is one performs that TICK, an FX18 with VX = 0, or RESET. That RESET is among
the causes is the model's choice (log 15): the spec names TICK and FX18 and does not speak of RESET. -/
def Obligations.SoundStopsOnlyByTickFx18OrReset : Prop :=
  (∀ s : State, ∃ t, command .tick s = .next t ∧ (soundStopEdge s t = true ↔ s.st = 1)) ∧
  ∀ s t : State, step s = .next t → soundStopEdge s t = true →
    (s.nextCommand = .tick ∧ s.st = 1) ∨ s.nextCommand = .reset ∨
    ∃ d x, s.nextCommand = .step d ∧ s.halted = none ∧ decode s.cfg.strict59 s.fetchWord = .ok (.ldStVx x) ∧ s.getV x = 0
end

