-- ==== Sys2Proof/Laws/Decode.lean ====
section
/-! SUPPORT. The field of a word built from fields is that field. -/

namespace Sys2Proof

/-- A slice of a concatenation that lies in its low part. -/
theorem slice_append_low {v w start len : Nat} (hi : BitVec v) (lo : BitVec w) (h : start + len ≤ w) :
    (hi ++ lo).extractLsb' start len = lo.extractLsb' start len := by
  apply BitVec.eq_of_getLsbD_eq
  intro i hi'
  have : start + i < w := by omega
  simp [BitVec.getLsbD_append, hi', this]

/-- A slice of a concatenation that lies in its high part. -/
theorem slice_append_high {v w start len : Nat} (hi : BitVec v) (lo : BitVec w) (h : w ≤ start) :
    (hi ++ lo).extractLsb' start len = hi.extractLsb' (start - w) len := by
  apply BitVec.eq_of_getLsbD_eq
  intro i hi'
  have h1 : ¬ start + i < w := by omega
  have h2 : start + i - w = start - w + i := by omega
  simp [BitVec.getLsbD_append, hi', h1, h2]

/-- The slice that is the whole. -/
theorem slice_all {w : Nat} (b : BitVec w) : b.extractLsb' 0 w = b := by
  apply BitVec.eq_of_getLsbD_eq
  intro i hi'
  simp [hi']

@[simp] theorem fieldOp_wordNNN (op : BitVec 4) (nnn : Addr12) : fieldOp (wordNNN op nnn) = op := by
  unfold fieldOp wordNNN; rw [slice_append_high _ _ (by decide)]; exact slice_all op
@[simp] theorem fieldNNN_wordNNN (op : BitVec 4) (nnn : Addr12) : fieldNNN (wordNNN op nnn) = nnn := by
  unfold fieldNNN wordNNN; rw [slice_append_low _ _ (by decide)]; exact slice_all nnn

@[simp] theorem fieldOp_wordXNN (op : BitVec 4) (x : Reg) (nn : Byte) : fieldOp (wordXNN op x nn) = op := by
  unfold fieldOp wordXNN
  rw [slice_append_high (op ++ x) nn (by decide), slice_append_high op x (by decide)]; exact slice_all op
@[simp] theorem fieldX_wordXNN (op : BitVec 4) (x : Reg) (nn : Byte) : fieldX (wordXNN op x nn) = x := by
  unfold fieldX wordXNN
  rw [slice_append_high (op ++ x) nn (by decide), slice_append_low op x (by decide)]; exact slice_all x
@[simp] theorem fieldNN_wordXNN (op : BitVec 4) (x : Reg) (nn : Byte) : fieldNN (wordXNN op x nn) = nn := by
  unfold fieldNN wordXNN
  rw [slice_append_low (op ++ x) nn (by decide)]; exact slice_all nn

@[simp] theorem fieldOp_wordXYN (op : BitVec 4) (x y : Reg) (n : BitVec 4) : fieldOp (wordXYN op x y n) = op := by
  unfold fieldOp wordXYN
  rw [slice_append_high (op ++ x ++ y) n (by decide), slice_append_high (op ++ x) y (by decide),
    slice_append_high op x (by decide)]
  exact slice_all op
@[simp] theorem fieldX_wordXYN (op : BitVec 4) (x y : Reg) (n : BitVec 4) : fieldX (wordXYN op x y n) = x := by
  unfold fieldX wordXYN
  rw [slice_append_high (op ++ x ++ y) n (by decide), slice_append_high (op ++ x) y (by decide),
    slice_append_low op x (by decide)]
  exact slice_all x
@[simp] theorem fieldY_wordXYN (op : BitVec 4) (x y : Reg) (n : BitVec 4) : fieldY (wordXYN op x y n) = y := by
  unfold fieldY wordXYN
  rw [slice_append_high (op ++ x ++ y) n (by decide), slice_append_low (op ++ x) y (by decide)]
  exact slice_all y
@[simp] theorem fieldN_wordXYN (op : BitVec 4) (x y : Reg) (n : BitVec 4) : fieldN (wordXYN op x y n) = n := by
  unfold fieldN wordXYN
  rw [slice_append_low (op ++ x ++ y) n (by decide)]
  exact slice_all n

/-! ### The words as numbers -/

/-- A word from a family nibble and NNN, as a number (30_encoding.md R40). -/
theorem wordNNN_toNat (op : BitVec 4) (nnn : Addr12) : (wordNNN op nnn).toNat = op.toNat * 4096 + nnn.toNat := by
  have h := nnn.isLt
  show (op ++ nnn).toNat = _
  rw [BitVec.toNat_append, ← Nat.shiftLeft_add_eq_or_of_lt h, Nat.shiftLeft_eq]

/-- A word from a family nibble, X and NN, as a number (R40). -/
theorem wordXNN_toNat (op : BitVec 4) (x : Reg) (nn : Byte) :
    (wordXNN op x nn).toNat = op.toNat * 4096 + x.toNat * 256 + nn.toNat := by
  have h := nn.isLt
  have hx := x.isLt
  show (op ++ x ++ nn).toNat = _
  rw [BitVec.toNat_append, ← Nat.shiftLeft_add_eq_or_of_lt h, BitVec.toNat_append, ← Nat.shiftLeft_add_eq_or_of_lt hx,
    Nat.shiftLeft_eq, Nat.shiftLeft_eq]
  omega

/-- A word from a family nibble, X, Y and N, as a number (R40). -/
theorem wordXYN_toNat (op : BitVec 4) (x y : Reg) (n : BitVec 4) :
    (wordXYN op x y n).toNat = op.toNat * 4096 + x.toNat * 256 + y.toNat * 16 + n.toNat := by
  have h := n.isLt
  have hy := y.isLt
  have hx := x.isLt
  show (op ++ x ++ y ++ n).toNat = _
  rw [BitVec.toNat_append, ← Nat.shiftLeft_add_eq_or_of_lt h, BitVec.toNat_append, ← Nat.shiftLeft_add_eq_or_of_lt hy,
    BitVec.toNat_append, ← Nat.shiftLeft_add_eq_or_of_lt hx, Nat.shiftLeft_eq, Nat.shiftLeft_eq, Nat.shiftLeft_eq]
  omega

/-- Two bytes joined, as a number (00_scope.md R7). -/
theorem joinBytes_toNat (hi lo : Byte) : (joinBytes hi lo).toNat = hi.toNat * 256 + lo.toNat := by
  have h := lo.isLt
  show (hi ++ lo).toNat = _
  rw [BitVec.toNat_append, ← Nat.shiftLeft_add_eq_or_of_lt h, Nat.shiftLeft_eq]

/-- The two bytes of a word, joined, are the word (20_memory.md R27). -/
@[simp] theorem joinBytes_high_low (w : Word) : joinBytes (highByte w) (lowByte w) = w := by
  apply BitVec.eq_of_getLsbD_eq
  intro i hi
  unfold joinBytes highByte lowByte
  rw [BitVec.getLsbD_append]
  by_cases h : i < 8
  · simp [h]
  · have h2 : 8 + (i - 8) = i := by omega
    have h3 : i - 8 < 8 := by omega
    simp [h, h2, h3]

end Sys2Proof
end

