-- ==== Sys2Proof/Laws/State.lean ====
section
/-! SUPPORT. One lemma per field per update of the state, true by rfl, and the same for the accessors, so that no later
proof unfolds a record update. -/

namespace Sys2Proof.Machine

variable (s : State)

/-! ### setV -/

@[simp] theorem State.setV_v (x : Reg) (b : Byte) : (s.setV x b).v = s.v.set x.toNat b x.isLt := rfl
@[simp] theorem State.setV_i (x : Reg) (b : Byte) : (s.setV x b).i = s.i := rfl
@[simp] theorem State.setV_pc (x : Reg) (b : Byte) : (s.setV x b).pc = s.pc := rfl
@[simp] theorem State.setV_sp (x : Reg) (b : Byte) : (s.setV x b).sp = s.sp := rfl
@[simp] theorem State.setV_stack (x : Reg) (b : Byte) : (s.setV x b).stack = s.stack := rfl
@[simp] theorem State.setV_dt (x : Reg) (b : Byte) : (s.setV x b).dt = s.dt := rfl
@[simp] theorem State.setV_st (x : Reg) (b : Byte) : (s.setV x b).st = s.st := rfl
@[simp] theorem State.setV_key (x : Reg) (b : Byte) : (s.setV x b).key = s.key := rfl
@[simp] theorem State.setV_fb (x : Reg) (b : Byte) : (s.setV x b).fb = s.fb := rfl
@[simp] theorem State.setV_mem (x : Reg) (b : Byte) : (s.setV x b).mem = s.mem := rfl
@[simp] theorem State.setV_cfg (x : Reg) (b : Byte) : (s.setV x b).cfg = s.cfg := rfl
@[simp] theorem State.setV_started (x : Reg) (b : Byte) : (s.setV x b).started = s.started := rfl
@[simp] theorem State.setV_halted (x : Reg) (b : Byte) : (s.setV x b).halted = s.halted := rfl
@[simp] theorem State.setV_response (x : Reg) (b : Byte) : (s.setV x b).response = s.response := rfl
@[simp] theorem State.setV_draw (x : Reg) (b : Byte) : (s.setV x b).draw = s.draw := rfl
@[simp] theorem State.setV_drawCount (x : Reg) (b : Byte) : (s.setV x b).drawCount = s.drawCount := rfl
@[simp] theorem State.setV_inputs (x : Reg) (b : Byte) : (s.setV x b).inputs = s.inputs := rfl
@[simp] theorem State.setV_pixel (x : Reg) (b : Byte) (px py : Nat) : (s.setV x b).pixel px py = s.pixel px py := rfl
@[simp] theorem State.setV_memRead (x : Reg) (b : Byte) (p : Nat) : (s.setV x b).memRead p = s.memRead p := rfl
@[simp] theorem State.setV_keyDown (x : Reg) (b : Byte) (k : Nat) : (s.setV x b).keyDown k = s.keyDown k := rfl

/-! ### setI -/

@[simp] theorem State.setI_v (w : Word) : (s.setI w).v = s.v := rfl
@[simp] theorem State.setI_i (w : Word) : (s.setI w).i = w := rfl
@[simp] theorem State.setI_pc (w : Word) : (s.setI w).pc = s.pc := rfl
@[simp] theorem State.setI_sp (w : Word) : (s.setI w).sp = s.sp := rfl
@[simp] theorem State.setI_stack (w : Word) : (s.setI w).stack = s.stack := rfl
@[simp] theorem State.setI_dt (w : Word) : (s.setI w).dt = s.dt := rfl
@[simp] theorem State.setI_st (w : Word) : (s.setI w).st = s.st := rfl
@[simp] theorem State.setI_key (w : Word) : (s.setI w).key = s.key := rfl
@[simp] theorem State.setI_fb (w : Word) : (s.setI w).fb = s.fb := rfl
@[simp] theorem State.setI_mem (w : Word) : (s.setI w).mem = s.mem := rfl
@[simp] theorem State.setI_cfg (w : Word) : (s.setI w).cfg = s.cfg := rfl
@[simp] theorem State.setI_started (w : Word) : (s.setI w).started = s.started := rfl
@[simp] theorem State.setI_halted (w : Word) : (s.setI w).halted = s.halted := rfl
@[simp] theorem State.setI_response (w : Word) : (s.setI w).response = s.response := rfl
@[simp] theorem State.setI_draw (w : Word) : (s.setI w).draw = s.draw := rfl
@[simp] theorem State.setI_drawCount (w : Word) : (s.setI w).drawCount = s.drawCount := rfl
@[simp] theorem State.setI_inputs (w : Word) : (s.setI w).inputs = s.inputs := rfl
@[simp] theorem State.setI_getV (w : Word) (y : Reg) : (s.setI w).getV y = s.getV y := rfl
@[simp] theorem State.setI_pixel (w : Word) (px py : Nat) : (s.setI w).pixel px py = s.pixel px py := rfl
@[simp] theorem State.setI_memRead (w : Word) (p : Nat) : (s.setI w).memRead p = s.memRead p := rfl
@[simp] theorem State.setI_keyDown (w : Word) (k : Nat) : (s.setI w).keyDown k = s.keyDown k := rfl

/-! ### setPc -/

@[simp] theorem State.setPc_v (w : Word) : (s.setPc w).v = s.v := rfl
@[simp] theorem State.setPc_i (w : Word) : (s.setPc w).i = s.i := rfl
@[simp] theorem State.setPc_pc (w : Word) : (s.setPc w).pc = w := rfl
@[simp] theorem State.setPc_sp (w : Word) : (s.setPc w).sp = s.sp := rfl
@[simp] theorem State.setPc_stack (w : Word) : (s.setPc w).stack = s.stack := rfl
@[simp] theorem State.setPc_dt (w : Word) : (s.setPc w).dt = s.dt := rfl
@[simp] theorem State.setPc_st (w : Word) : (s.setPc w).st = s.st := rfl
@[simp] theorem State.setPc_key (w : Word) : (s.setPc w).key = s.key := rfl
@[simp] theorem State.setPc_fb (w : Word) : (s.setPc w).fb = s.fb := rfl
@[simp] theorem State.setPc_mem (w : Word) : (s.setPc w).mem = s.mem := rfl
@[simp] theorem State.setPc_cfg (w : Word) : (s.setPc w).cfg = s.cfg := rfl
@[simp] theorem State.setPc_started (w : Word) : (s.setPc w).started = s.started := rfl
@[simp] theorem State.setPc_halted (w : Word) : (s.setPc w).halted = s.halted := rfl
@[simp] theorem State.setPc_response (w : Word) : (s.setPc w).response = s.response := rfl
@[simp] theorem State.setPc_draw (w : Word) : (s.setPc w).draw = s.draw := rfl
@[simp] theorem State.setPc_drawCount (w : Word) : (s.setPc w).drawCount = s.drawCount := rfl
@[simp] theorem State.setPc_inputs (w : Word) : (s.setPc w).inputs = s.inputs := rfl
@[simp] theorem State.setPc_getV (w : Word) (y : Reg) : (s.setPc w).getV y = s.getV y := rfl
@[simp] theorem State.setPc_pixel (w : Word) (px py : Nat) : (s.setPc w).pixel px py = s.pixel px py := rfl
@[simp] theorem State.setPc_memRead (w : Word) (p : Nat) : (s.setPc w).memRead p = s.memRead p := rfl
@[simp] theorem State.setPc_keyDown (w : Word) (k : Nat) : (s.setPc w).keyDown k = s.keyDown k := rfl

/-! ### setDt -/

@[simp] theorem State.setDt_v (b : Byte) : (s.setDt b).v = s.v := rfl
@[simp] theorem State.setDt_i (b : Byte) : (s.setDt b).i = s.i := rfl
@[simp] theorem State.setDt_pc (b : Byte) : (s.setDt b).pc = s.pc := rfl
@[simp] theorem State.setDt_sp (b : Byte) : (s.setDt b).sp = s.sp := rfl
@[simp] theorem State.setDt_stack (b : Byte) : (s.setDt b).stack = s.stack := rfl
@[simp] theorem State.setDt_dt (b : Byte) : (s.setDt b).dt = b := rfl
@[simp] theorem State.setDt_st (b : Byte) : (s.setDt b).st = s.st := rfl
@[simp] theorem State.setDt_key (b : Byte) : (s.setDt b).key = s.key := rfl
@[simp] theorem State.setDt_fb (b : Byte) : (s.setDt b).fb = s.fb := rfl
@[simp] theorem State.setDt_mem (b : Byte) : (s.setDt b).mem = s.mem := rfl
@[simp] theorem State.setDt_cfg (b : Byte) : (s.setDt b).cfg = s.cfg := rfl
@[simp] theorem State.setDt_started (b : Byte) : (s.setDt b).started = s.started := rfl
@[simp] theorem State.setDt_halted (b : Byte) : (s.setDt b).halted = s.halted := rfl
@[simp] theorem State.setDt_response (b : Byte) : (s.setDt b).response = s.response := rfl
@[simp] theorem State.setDt_draw (b : Byte) : (s.setDt b).draw = s.draw := rfl
@[simp] theorem State.setDt_drawCount (b : Byte) : (s.setDt b).drawCount = s.drawCount := rfl
@[simp] theorem State.setDt_inputs (b : Byte) : (s.setDt b).inputs = s.inputs := rfl
@[simp] theorem State.setDt_getV (b : Byte) (y : Reg) : (s.setDt b).getV y = s.getV y := rfl
@[simp] theorem State.setDt_pixel (b : Byte) (px py : Nat) : (s.setDt b).pixel px py = s.pixel px py := rfl
@[simp] theorem State.setDt_memRead (b : Byte) (p : Nat) : (s.setDt b).memRead p = s.memRead p := rfl
@[simp] theorem State.setDt_keyDown (b : Byte) (k : Nat) : (s.setDt b).keyDown k = s.keyDown k := rfl

/-! ### setSt -/

@[simp] theorem State.setSt_v (b : Byte) : (s.setSt b).v = s.v := rfl
@[simp] theorem State.setSt_i (b : Byte) : (s.setSt b).i = s.i := rfl
@[simp] theorem State.setSt_pc (b : Byte) : (s.setSt b).pc = s.pc := rfl
@[simp] theorem State.setSt_sp (b : Byte) : (s.setSt b).sp = s.sp := rfl
@[simp] theorem State.setSt_stack (b : Byte) : (s.setSt b).stack = s.stack := rfl
@[simp] theorem State.setSt_dt (b : Byte) : (s.setSt b).dt = s.dt := rfl
@[simp] theorem State.setSt_st (b : Byte) : (s.setSt b).st = b := rfl
@[simp] theorem State.setSt_key (b : Byte) : (s.setSt b).key = s.key := rfl
@[simp] theorem State.setSt_fb (b : Byte) : (s.setSt b).fb = s.fb := rfl
@[simp] theorem State.setSt_mem (b : Byte) : (s.setSt b).mem = s.mem := rfl
@[simp] theorem State.setSt_cfg (b : Byte) : (s.setSt b).cfg = s.cfg := rfl
@[simp] theorem State.setSt_started (b : Byte) : (s.setSt b).started = s.started := rfl
@[simp] theorem State.setSt_halted (b : Byte) : (s.setSt b).halted = s.halted := rfl
@[simp] theorem State.setSt_response (b : Byte) : (s.setSt b).response = s.response := rfl
@[simp] theorem State.setSt_draw (b : Byte) : (s.setSt b).draw = s.draw := rfl
@[simp] theorem State.setSt_drawCount (b : Byte) : (s.setSt b).drawCount = s.drawCount := rfl
@[simp] theorem State.setSt_inputs (b : Byte) : (s.setSt b).inputs = s.inputs := rfl
@[simp] theorem State.setSt_getV (b : Byte) (y : Reg) : (s.setSt b).getV y = s.getV y := rfl
@[simp] theorem State.setSt_pixel (b : Byte) (px py : Nat) : (s.setSt b).pixel px py = s.pixel px py := rfl
@[simp] theorem State.setSt_memRead (b : Byte) (p : Nat) : (s.setSt b).memRead p = s.memRead p := rfl
@[simp] theorem State.setSt_keyDown (b : Byte) (k : Nat) : (s.setSt b).keyDown k = s.keyDown k := rfl

/-! ### setFb -/

@[simp] theorem State.setFb_v (f : Framebuffer) : (s.setFb f).v = s.v := rfl
@[simp] theorem State.setFb_i (f : Framebuffer) : (s.setFb f).i = s.i := rfl
@[simp] theorem State.setFb_pc (f : Framebuffer) : (s.setFb f).pc = s.pc := rfl
@[simp] theorem State.setFb_sp (f : Framebuffer) : (s.setFb f).sp = s.sp := rfl
@[simp] theorem State.setFb_stack (f : Framebuffer) : (s.setFb f).stack = s.stack := rfl
@[simp] theorem State.setFb_dt (f : Framebuffer) : (s.setFb f).dt = s.dt := rfl
@[simp] theorem State.setFb_st (f : Framebuffer) : (s.setFb f).st = s.st := rfl
@[simp] theorem State.setFb_key (f : Framebuffer) : (s.setFb f).key = s.key := rfl
@[simp] theorem State.setFb_fb (f : Framebuffer) : (s.setFb f).fb = f := rfl
@[simp] theorem State.setFb_mem (f : Framebuffer) : (s.setFb f).mem = s.mem := rfl
@[simp] theorem State.setFb_cfg (f : Framebuffer) : (s.setFb f).cfg = s.cfg := rfl
@[simp] theorem State.setFb_started (f : Framebuffer) : (s.setFb f).started = s.started := rfl
@[simp] theorem State.setFb_halted (f : Framebuffer) : (s.setFb f).halted = s.halted := rfl
@[simp] theorem State.setFb_response (f : Framebuffer) : (s.setFb f).response = s.response := rfl
@[simp] theorem State.setFb_draw (f : Framebuffer) : (s.setFb f).draw = s.draw := rfl
@[simp] theorem State.setFb_drawCount (f : Framebuffer) : (s.setFb f).drawCount = s.drawCount := rfl
@[simp] theorem State.setFb_inputs (f : Framebuffer) : (s.setFb f).inputs = s.inputs := rfl
@[simp] theorem State.setFb_getV (f : Framebuffer) (y : Reg) : (s.setFb f).getV y = s.getV y := rfl
@[simp] theorem State.setFb_memRead (f : Framebuffer) (p : Nat) : (s.setFb f).memRead p = s.memRead p := rfl
@[simp] theorem State.setFb_keyDown (f : Framebuffer) (k : Nat) : (s.setFb f).keyDown k = s.keyDown k := rfl

/-! ### memWrite -/

@[simp] theorem State.memWrite_v (a : Nat) (b : Byte) : (s.memWrite a b).v = s.v := rfl
@[simp] theorem State.memWrite_i (a : Nat) (b : Byte) : (s.memWrite a b).i = s.i := rfl
@[simp] theorem State.memWrite_pc (a : Nat) (b : Byte) : (s.memWrite a b).pc = s.pc := rfl
@[simp] theorem State.memWrite_sp (a : Nat) (b : Byte) : (s.memWrite a b).sp = s.sp := rfl
@[simp] theorem State.memWrite_stack (a : Nat) (b : Byte) : (s.memWrite a b).stack = s.stack := rfl
@[simp] theorem State.memWrite_dt (a : Nat) (b : Byte) : (s.memWrite a b).dt = s.dt := rfl
@[simp] theorem State.memWrite_st (a : Nat) (b : Byte) : (s.memWrite a b).st = s.st := rfl
@[simp] theorem State.memWrite_key (a : Nat) (b : Byte) : (s.memWrite a b).key = s.key := rfl
@[simp] theorem State.memWrite_fb (a : Nat) (b : Byte) : (s.memWrite a b).fb = s.fb := rfl
@[simp] theorem State.memWrite_mem (a : Nat) (b : Byte) : (s.memWrite a b).mem = s.mem.write (effAddr a) b := rfl
@[simp] theorem State.memWrite_cfg (a : Nat) (b : Byte) : (s.memWrite a b).cfg = s.cfg := rfl
@[simp] theorem State.memWrite_started (a : Nat) (b : Byte) : (s.memWrite a b).started = s.started := rfl
@[simp] theorem State.memWrite_halted (a : Nat) (b : Byte) : (s.memWrite a b).halted = s.halted := rfl
@[simp] theorem State.memWrite_response (a : Nat) (b : Byte) : (s.memWrite a b).response = s.response := rfl
@[simp] theorem State.memWrite_draw (a : Nat) (b : Byte) : (s.memWrite a b).draw = s.draw := rfl
@[simp] theorem State.memWrite_drawCount (a : Nat) (b : Byte) : (s.memWrite a b).drawCount = s.drawCount := rfl
@[simp] theorem State.memWrite_inputs (a : Nat) (b : Byte) : (s.memWrite a b).inputs = s.inputs := rfl
@[simp] theorem State.memWrite_getV (a : Nat) (b : Byte) (y : Reg) : (s.memWrite a b).getV y = s.getV y := rfl
@[simp] theorem State.memWrite_pixel (a : Nat) (b : Byte) (px py : Nat) : (s.memWrite a b).pixel px py = s.pixel px py := rfl
@[simp] theorem State.memWrite_keyDown (a : Nat) (b : Byte) (k : Nat) : (s.memWrite a b).keyDown k = s.keyDown k := rfl

/-! ### skip -/

@[simp] theorem State.skip_v : (s.skip).v = s.v := rfl
@[simp] theorem State.skip_i : (s.skip).i = s.i := rfl
@[simp] theorem State.skip_pc : (s.skip).pc = s.pc + 2 := rfl
@[simp] theorem State.skip_sp : (s.skip).sp = s.sp := rfl
@[simp] theorem State.skip_stack : (s.skip).stack = s.stack := rfl
@[simp] theorem State.skip_dt : (s.skip).dt = s.dt := rfl
@[simp] theorem State.skip_st : (s.skip).st = s.st := rfl
@[simp] theorem State.skip_key : (s.skip).key = s.key := rfl
@[simp] theorem State.skip_fb : (s.skip).fb = s.fb := rfl
@[simp] theorem State.skip_mem : (s.skip).mem = s.mem := rfl
@[simp] theorem State.skip_cfg : (s.skip).cfg = s.cfg := rfl
@[simp] theorem State.skip_started : (s.skip).started = s.started := rfl
@[simp] theorem State.skip_halted : (s.skip).halted = s.halted := rfl
@[simp] theorem State.skip_response : (s.skip).response = s.response := rfl
@[simp] theorem State.skip_draw : (s.skip).draw = s.draw := rfl
@[simp] theorem State.skip_drawCount : (s.skip).drawCount = s.drawCount := rfl
@[simp] theorem State.skip_inputs : (s.skip).inputs = s.inputs := rfl
@[simp] theorem State.skip_getV (y : Reg) : (s.skip).getV y = s.getV y := rfl
@[simp] theorem State.skip_pixel (px py : Nat) : (s.skip).pixel px py = s.pixel px py := rfl
@[simp] theorem State.skip_memRead (p : Nat) : (s.skip).memRead p = s.memRead p := rfl
@[simp] theorem State.skip_keyDown (k : Nat) : (s.skip).keyDown k = s.keyDown k := rfl

/-! ### advance -/

@[simp] theorem State.advance_v : (s.advance).v = s.v := rfl
@[simp] theorem State.advance_i : (s.advance).i = s.i := rfl
@[simp] theorem State.advance_pc : (s.advance).pc = s.pc + 2 := rfl
@[simp] theorem State.advance_sp : (s.advance).sp = s.sp := rfl
@[simp] theorem State.advance_stack : (s.advance).stack = s.stack := rfl
@[simp] theorem State.advance_dt : (s.advance).dt = s.dt := rfl
@[simp] theorem State.advance_st : (s.advance).st = s.st := rfl
@[simp] theorem State.advance_key : (s.advance).key = s.key := rfl
@[simp] theorem State.advance_fb : (s.advance).fb = s.fb := rfl
@[simp] theorem State.advance_mem : (s.advance).mem = s.mem := rfl
@[simp] theorem State.advance_cfg : (s.advance).cfg = s.cfg := rfl
@[simp] theorem State.advance_started : (s.advance).started = s.started := rfl
@[simp] theorem State.advance_halted : (s.advance).halted = s.halted := rfl
@[simp] theorem State.advance_response : (s.advance).response = s.response := rfl
@[simp] theorem State.advance_draw : (s.advance).draw = s.draw := rfl
@[simp] theorem State.advance_drawCount : (s.advance).drawCount = s.drawCount := rfl
@[simp] theorem State.advance_inputs : (s.advance).inputs = s.inputs := rfl
@[simp] theorem State.advance_getV (y : Reg) : (s.advance).getV y = s.getV y := rfl
@[simp] theorem State.advance_pixel (px py : Nat) : (s.advance).pixel px py = s.pixel px py := rfl
@[simp] theorem State.advance_memRead (p : Nat) : (s.advance).memRead p = s.memRead p := rfl
@[simp] theorem State.advance_keyDown (k : Nat) : (s.advance).keyDown k = s.keyDown k := rfl

/-! ### drawTaken -/

@[simp] theorem State.drawTaken_v : (s.drawTaken).v = s.v := rfl
@[simp] theorem State.drawTaken_i : (s.drawTaken).i = s.i := rfl
@[simp] theorem State.drawTaken_pc : (s.drawTaken).pc = s.pc := rfl
@[simp] theorem State.drawTaken_sp : (s.drawTaken).sp = s.sp := rfl
@[simp] theorem State.drawTaken_stack : (s.drawTaken).stack = s.stack := rfl
@[simp] theorem State.drawTaken_dt : (s.drawTaken).dt = s.dt := rfl
@[simp] theorem State.drawTaken_st : (s.drawTaken).st = s.st := rfl
@[simp] theorem State.drawTaken_key : (s.drawTaken).key = s.key := rfl
@[simp] theorem State.drawTaken_fb : (s.drawTaken).fb = s.fb := rfl
@[simp] theorem State.drawTaken_mem : (s.drawTaken).mem = s.mem := rfl
@[simp] theorem State.drawTaken_cfg : (s.drawTaken).cfg = s.cfg := rfl
@[simp] theorem State.drawTaken_started : (s.drawTaken).started = s.started := rfl
@[simp] theorem State.drawTaken_halted : (s.drawTaken).halted = s.halted := rfl
@[simp] theorem State.drawTaken_response : (s.drawTaken).response = s.response := rfl
@[simp] theorem State.drawTaken_draw : (s.drawTaken).draw = none := rfl
@[simp] theorem State.drawTaken_drawCount : (s.drawTaken).drawCount = s.drawCount + 1 := rfl
@[simp] theorem State.drawTaken_inputs : (s.drawTaken).inputs = s.inputs := rfl
@[simp] theorem State.drawTaken_getV (y : Reg) : (s.drawTaken).getV y = s.getV y := rfl
@[simp] theorem State.drawTaken_pixel (px py : Nat) : (s.drawTaken).pixel px py = s.pixel px py := rfl
@[simp] theorem State.drawTaken_memRead (p : Nat) : (s.drawTaken).memRead p = s.memRead p := rfl
@[simp] theorem State.drawTaken_keyDown (k : Nat) : (s.drawTaken).keyDown k = s.keyDown k := rfl

/-! ### reported -/

@[simp] theorem State.reported_v (r : ErrorReport) : (s.reported r).v = s.v := rfl
@[simp] theorem State.reported_i (r : ErrorReport) : (s.reported r).i = s.i := rfl
@[simp] theorem State.reported_pc (r : ErrorReport) : (s.reported r).pc = s.pc := rfl
@[simp] theorem State.reported_sp (r : ErrorReport) : (s.reported r).sp = s.sp := rfl
@[simp] theorem State.reported_stack (r : ErrorReport) : (s.reported r).stack = s.stack := rfl
@[simp] theorem State.reported_dt (r : ErrorReport) : (s.reported r).dt = s.dt := rfl
@[simp] theorem State.reported_st (r : ErrorReport) : (s.reported r).st = s.st := rfl
@[simp] theorem State.reported_key (r : ErrorReport) : (s.reported r).key = s.key := rfl
@[simp] theorem State.reported_fb (r : ErrorReport) : (s.reported r).fb = s.fb := rfl
@[simp] theorem State.reported_mem (r : ErrorReport) : (s.reported r).mem = s.mem := rfl
@[simp] theorem State.reported_cfg (r : ErrorReport) : (s.reported r).cfg = s.cfg := rfl
@[simp] theorem State.reported_started (r : ErrorReport) : (s.reported r).started = s.started := rfl
@[simp] theorem State.reported_halted (r : ErrorReport) : (s.reported r).halted = haltMark s r := rfl
@[simp] theorem State.reported_response (r : ErrorReport) : (s.reported r).response = .report r := rfl
@[simp] theorem State.reported_draw (r : ErrorReport) : (s.reported r).draw = s.draw := rfl
@[simp] theorem State.reported_drawCount (r : ErrorReport) : (s.reported r).drawCount = s.drawCount := rfl
@[simp] theorem State.reported_inputs (r : ErrorReport) : (s.reported r).inputs = s.inputs := rfl
@[simp] theorem State.reported_getV (r : ErrorReport) (y : Reg) : (s.reported r).getV y = s.getV y := rfl
@[simp] theorem State.reported_pixel (r : ErrorReport) (px py : Nat) : (s.reported r).pixel px py = s.pixel px py := rfl
@[simp] theorem State.reported_memRead (r : ErrorReport) (p : Nat) : (s.reported r).memRead p = s.memRead p := rfl
@[simp] theorem State.reported_keyDown (r : ErrorReport) (k : Nat) : (s.reported r).keyDown k = s.keyDown k := rfl

/-! ### respond -/

@[simp] theorem State.respond_v (r : Response) : (s.respond r).v = s.v := rfl
@[simp] theorem State.respond_i (r : Response) : (s.respond r).i = s.i := rfl
@[simp] theorem State.respond_pc (r : Response) : (s.respond r).pc = s.pc := rfl
@[simp] theorem State.respond_sp (r : Response) : (s.respond r).sp = s.sp := rfl
@[simp] theorem State.respond_stack (r : Response) : (s.respond r).stack = s.stack := rfl
@[simp] theorem State.respond_dt (r : Response) : (s.respond r).dt = s.dt := rfl
@[simp] theorem State.respond_st (r : Response) : (s.respond r).st = s.st := rfl
@[simp] theorem State.respond_key (r : Response) : (s.respond r).key = s.key := rfl
@[simp] theorem State.respond_fb (r : Response) : (s.respond r).fb = s.fb := rfl
@[simp] theorem State.respond_mem (r : Response) : (s.respond r).mem = s.mem := rfl
@[simp] theorem State.respond_cfg (r : Response) : (s.respond r).cfg = s.cfg := rfl
@[simp] theorem State.respond_started (r : Response) : (s.respond r).started = s.started := rfl
@[simp] theorem State.respond_halted (r : Response) : (s.respond r).halted = s.halted := rfl
@[simp] theorem State.respond_response (r : Response) : (s.respond r).response = r := rfl
@[simp] theorem State.respond_draw (r : Response) : (s.respond r).draw = s.draw := rfl
@[simp] theorem State.respond_drawCount (r : Response) : (s.respond r).drawCount = s.drawCount := rfl
@[simp] theorem State.respond_inputs (r : Response) : (s.respond r).inputs = s.inputs := rfl
@[simp] theorem State.respond_getV (r : Response) (y : Reg) : (s.respond r).getV y = s.getV y := rfl
@[simp] theorem State.respond_pixel (r : Response) (px py : Nat) : (s.respond r).pixel px py = s.pixel px py := rfl
@[simp] theorem State.respond_memRead (r : Response) (p : Nat) : (s.respond r).memRead p = s.memRead p := rfl
@[simp] theorem State.respond_keyDown (r : Response) (k : Nat) : (s.respond r).keyDown k = s.keyDown k := rfl

/-! ### beginStep -/

@[simp] theorem State.beginStep_v (d : Option Byte) : (s.beginStep d).v = s.v := rfl
@[simp] theorem State.beginStep_i (d : Option Byte) : (s.beginStep d).i = s.i := rfl
@[simp] theorem State.beginStep_pc (d : Option Byte) : (s.beginStep d).pc = s.pc := rfl
@[simp] theorem State.beginStep_sp (d : Option Byte) : (s.beginStep d).sp = s.sp := rfl
@[simp] theorem State.beginStep_stack (d : Option Byte) : (s.beginStep d).stack = s.stack := rfl
@[simp] theorem State.beginStep_dt (d : Option Byte) : (s.beginStep d).dt = s.dt := rfl
@[simp] theorem State.beginStep_st (d : Option Byte) : (s.beginStep d).st = s.st := rfl
@[simp] theorem State.beginStep_key (d : Option Byte) : (s.beginStep d).key = s.key := rfl
@[simp] theorem State.beginStep_fb (d : Option Byte) : (s.beginStep d).fb = s.fb := rfl
@[simp] theorem State.beginStep_mem (d : Option Byte) : (s.beginStep d).mem = s.mem := rfl
@[simp] theorem State.beginStep_cfg (d : Option Byte) : (s.beginStep d).cfg = s.cfg := rfl
@[simp] theorem State.beginStep_started (d : Option Byte) : (s.beginStep d).started = true := rfl
@[simp] theorem State.beginStep_halted (d : Option Byte) : (s.beginStep d).halted = s.halted := rfl
@[simp] theorem State.beginStep_response (d : Option Byte) : (s.beginStep d).response = .ok := rfl
@[simp] theorem State.beginStep_draw (d : Option Byte) : (s.beginStep d).draw = d := rfl
@[simp] theorem State.beginStep_drawCount (d : Option Byte) : (s.beginStep d).drawCount = s.drawCount := rfl
@[simp] theorem State.beginStep_inputs (d : Option Byte) : (s.beginStep d).inputs = s.inputs := rfl
@[simp] theorem State.beginStep_getV (d : Option Byte) (y : Reg) : (s.beginStep d).getV y = s.getV y := rfl
@[simp] theorem State.beginStep_pixel (d : Option Byte) (px py : Nat) : (s.beginStep d).pixel px py = s.pixel px py := rfl
@[simp] theorem State.beginStep_memRead (d : Option Byte) (p : Nat) : (s.beginStep d).memRead p = s.memRead p := rfl
@[simp] theorem State.beginStep_keyDown (d : Option Byte) (k : Nat) : (s.beginStep d).keyDown k = s.keyDown k := rfl

/-! ### postFetch -/

@[simp] theorem State.postFetch_v (d : Option Byte) : (s.postFetch d).v = s.v := rfl
@[simp] theorem State.postFetch_i (d : Option Byte) : (s.postFetch d).i = s.i := rfl
@[simp] theorem State.postFetch_pc (d : Option Byte) : (s.postFetch d).pc = s.pc + 2 := rfl
@[simp] theorem State.postFetch_sp (d : Option Byte) : (s.postFetch d).sp = s.sp := rfl
@[simp] theorem State.postFetch_stack (d : Option Byte) : (s.postFetch d).stack = s.stack := rfl
@[simp] theorem State.postFetch_dt (d : Option Byte) : (s.postFetch d).dt = s.dt := rfl
@[simp] theorem State.postFetch_st (d : Option Byte) : (s.postFetch d).st = s.st := rfl
@[simp] theorem State.postFetch_key (d : Option Byte) : (s.postFetch d).key = s.key := rfl
@[simp] theorem State.postFetch_fb (d : Option Byte) : (s.postFetch d).fb = s.fb := rfl
@[simp] theorem State.postFetch_mem (d : Option Byte) : (s.postFetch d).mem = s.mem := rfl
@[simp] theorem State.postFetch_cfg (d : Option Byte) : (s.postFetch d).cfg = s.cfg := rfl
@[simp] theorem State.postFetch_started (d : Option Byte) : (s.postFetch d).started = true := rfl
@[simp] theorem State.postFetch_halted (d : Option Byte) : (s.postFetch d).halted = s.halted := rfl
@[simp] theorem State.postFetch_response (d : Option Byte) : (s.postFetch d).response = .ok := rfl
@[simp] theorem State.postFetch_draw (d : Option Byte) : (s.postFetch d).draw = d := rfl
@[simp] theorem State.postFetch_drawCount (d : Option Byte) : (s.postFetch d).drawCount = s.drawCount := rfl
@[simp] theorem State.postFetch_inputs (d : Option Byte) : (s.postFetch d).inputs = s.inputs := rfl
@[simp] theorem State.postFetch_getV (d : Option Byte) (y : Reg) : (s.postFetch d).getV y = s.getV y := rfl
@[simp] theorem State.postFetch_pixel (d : Option Byte) (px py : Nat) : (s.postFetch d).pixel px py = s.pixel px py := rfl
@[simp] theorem State.postFetch_memRead (d : Option Byte) (p : Nat) : (s.postFetch d).memRead p = s.memRead p := rfl
@[simp] theorem State.postFetch_keyDown (d : Option Byte) (k : Nat) : (s.postFetch d).keyDown k = s.keyDown k := rfl

/-! ### dequeue -/

@[simp] theorem State.dequeue_v : (s.dequeue).v = s.v := rfl
@[simp] theorem State.dequeue_i : (s.dequeue).i = s.i := rfl
@[simp] theorem State.dequeue_pc : (s.dequeue).pc = s.pc := rfl
@[simp] theorem State.dequeue_sp : (s.dequeue).sp = s.sp := rfl
@[simp] theorem State.dequeue_stack : (s.dequeue).stack = s.stack := rfl
@[simp] theorem State.dequeue_dt : (s.dequeue).dt = s.dt := rfl
@[simp] theorem State.dequeue_st : (s.dequeue).st = s.st := rfl
@[simp] theorem State.dequeue_key : (s.dequeue).key = s.key := rfl
@[simp] theorem State.dequeue_fb : (s.dequeue).fb = s.fb := rfl
@[simp] theorem State.dequeue_mem : (s.dequeue).mem = s.mem := rfl
@[simp] theorem State.dequeue_cfg : (s.dequeue).cfg = s.cfg := rfl
@[simp] theorem State.dequeue_started : (s.dequeue).started = s.started := rfl
@[simp] theorem State.dequeue_halted : (s.dequeue).halted = s.halted := rfl
@[simp] theorem State.dequeue_response : (s.dequeue).response = s.response := rfl
@[simp] theorem State.dequeue_draw : (s.dequeue).draw = s.draw := rfl
@[simp] theorem State.dequeue_drawCount : (s.dequeue).drawCount = s.drawCount := rfl
@[simp] theorem State.dequeue_inputs : (s.dequeue).inputs = s.inputs.tail := rfl
@[simp] theorem State.dequeue_getV (y : Reg) : (s.dequeue).getV y = s.getV y := rfl
@[simp] theorem State.dequeue_pixel (px py : Nat) : (s.dequeue).pixel px py = s.pixel px py := rfl
@[simp] theorem State.dequeue_memRead (p : Nat) : (s.dequeue).memRead p = s.memRead p := rfl
@[simp] theorem State.dequeue_keyDown (k : Nat) : (s.dequeue).keyDown k = s.keyDown k := rfl

/-! ### readyForStep -/

@[simp] theorem State.readyForStep_v : s.readyForStep.v = s.v := rfl
@[simp] theorem State.readyForStep_i : s.readyForStep.i = s.i := rfl
@[simp] theorem State.readyForStep_pc : s.readyForStep.pc = s.pc := rfl
@[simp] theorem State.readyForStep_sp : s.readyForStep.sp = s.sp := rfl
@[simp] theorem State.readyForStep_stack : s.readyForStep.stack = s.stack := rfl
@[simp] theorem State.readyForStep_dt : s.readyForStep.dt = s.dt := rfl
@[simp] theorem State.readyForStep_st : s.readyForStep.st = s.st := rfl
@[simp] theorem State.readyForStep_key : s.readyForStep.key = s.key := rfl
@[simp] theorem State.readyForStep_fb : s.readyForStep.fb = s.fb := rfl
@[simp] theorem State.readyForStep_mem : s.readyForStep.mem = s.mem := rfl
@[simp] theorem State.readyForStep_cfg : s.readyForStep.cfg = s.cfg := rfl
@[simp] theorem State.readyForStep_started : s.readyForStep.started = s.started := rfl
@[simp] theorem State.readyForStep_halted : s.readyForStep.halted = none := rfl
@[simp] theorem State.readyForStep_response : s.readyForStep.response = s.response := rfl
@[simp] theorem State.readyForStep_draw : s.readyForStep.draw = s.draw := rfl
@[simp] theorem State.readyForStep_drawCount : s.readyForStep.drawCount = s.drawCount := rfl
@[simp] theorem State.readyForStep_inputs : s.readyForStep.inputs = [] := rfl
@[simp] theorem State.readyForStep_getV (y : Reg) : s.readyForStep.getV y = s.getV y := rfl
@[simp] theorem State.readyForStep_pixel (px py : Nat) : s.readyForStep.pixel px py = s.pixel px py := rfl
@[simp] theorem State.readyForStep_memRead (c : Nat) : s.readyForStep.memRead c = s.memRead c := rfl
@[simp] theorem State.readyForStep_keyDown (k : Nat) : s.readyForStep.keyDown k = s.keyDown k := rfl

/-! ### skipIf -/

@[simp] theorem State.skipIf_v (c : Bool) : (s.skipIf c).v = s.v := by cases c <;> rfl
@[simp] theorem State.skipIf_i (c : Bool) : (s.skipIf c).i = s.i := by cases c <;> rfl
@[simp] theorem State.skipIf_sp (c : Bool) : (s.skipIf c).sp = s.sp := by cases c <;> rfl
@[simp] theorem State.skipIf_stack (c : Bool) : (s.skipIf c).stack = s.stack := by cases c <;> rfl
@[simp] theorem State.skipIf_dt (c : Bool) : (s.skipIf c).dt = s.dt := by cases c <;> rfl
@[simp] theorem State.skipIf_st (c : Bool) : (s.skipIf c).st = s.st := by cases c <;> rfl
@[simp] theorem State.skipIf_key (c : Bool) : (s.skipIf c).key = s.key := by cases c <;> rfl
@[simp] theorem State.skipIf_fb (c : Bool) : (s.skipIf c).fb = s.fb := by cases c <;> rfl
@[simp] theorem State.skipIf_mem (c : Bool) : (s.skipIf c).mem = s.mem := by cases c <;> rfl
@[simp] theorem State.skipIf_cfg (c : Bool) : (s.skipIf c).cfg = s.cfg := by cases c <;> rfl
@[simp] theorem State.skipIf_started (c : Bool) : (s.skipIf c).started = s.started := by cases c <;> rfl
@[simp] theorem State.skipIf_halted (c : Bool) : (s.skipIf c).halted = s.halted := by cases c <;> rfl
@[simp] theorem State.skipIf_response (c : Bool) : (s.skipIf c).response = s.response := by cases c <;> rfl
@[simp] theorem State.skipIf_draw (c : Bool) : (s.skipIf c).draw = s.draw := by cases c <;> rfl
@[simp] theorem State.skipIf_drawCount (c : Bool) : (s.skipIf c).drawCount = s.drawCount := by cases c <;> rfl
@[simp] theorem State.skipIf_inputs (c : Bool) : (s.skipIf c).inputs = s.inputs := by cases c <;> rfl
@[simp] theorem State.skipIf_pc (c : Bool) : (s.skipIf c).pc = if c then s.pc + 2 else s.pc := by cases c <;> rfl
@[simp] theorem State.skipIf_getV (c : Bool) (y : Reg) : (s.skipIf c).getV y = s.getV y := by cases c <;> rfl
@[simp] theorem State.skipIf_pixel (c : Bool) (px py : Nat) : (s.skipIf c).pixel px py = s.pixel px py := by cases c <;> rfl
@[simp] theorem State.skipIf_memRead (c : Bool) (p : Nat) : (s.skipIf c).memRead p = s.memRead p := by cases c <;> rfl
@[simp] theorem State.skipIf_keyDown (c : Bool) (k : Nat) : (s.skipIf c).keyDown k = s.keyDown k := by cases c <;> rfl

/-! ### setResultFlag -/

@[simp] theorem State.setResultFlag_i (x : Reg) (r : Byte) (c : Bool) : (s.setResultFlag x r c).i = s.i := rfl
@[simp] theorem State.setResultFlag_pc (x : Reg) (r : Byte) (c : Bool) : (s.setResultFlag x r c).pc = s.pc := rfl
@[simp] theorem State.setResultFlag_sp (x : Reg) (r : Byte) (c : Bool) : (s.setResultFlag x r c).sp = s.sp := rfl
@[simp] theorem State.setResultFlag_stack (x : Reg) (r : Byte) (c : Bool) : (s.setResultFlag x r c).stack = s.stack := rfl
@[simp] theorem State.setResultFlag_dt (x : Reg) (r : Byte) (c : Bool) : (s.setResultFlag x r c).dt = s.dt := rfl
@[simp] theorem State.setResultFlag_st (x : Reg) (r : Byte) (c : Bool) : (s.setResultFlag x r c).st = s.st := rfl
@[simp] theorem State.setResultFlag_key (x : Reg) (r : Byte) (c : Bool) : (s.setResultFlag x r c).key = s.key := rfl
@[simp] theorem State.setResultFlag_fb (x : Reg) (r : Byte) (c : Bool) : (s.setResultFlag x r c).fb = s.fb := rfl
@[simp] theorem State.setResultFlag_mem (x : Reg) (r : Byte) (c : Bool) : (s.setResultFlag x r c).mem = s.mem := rfl
@[simp] theorem State.setResultFlag_cfg (x : Reg) (r : Byte) (c : Bool) : (s.setResultFlag x r c).cfg = s.cfg := rfl
@[simp] theorem State.setResultFlag_started (x : Reg) (r : Byte) (c : Bool) : (s.setResultFlag x r c).started = s.started := rfl
@[simp] theorem State.setResultFlag_halted (x : Reg) (r : Byte) (c : Bool) : (s.setResultFlag x r c).halted = s.halted := rfl
@[simp] theorem State.setResultFlag_response (x : Reg) (r : Byte) (c : Bool) : (s.setResultFlag x r c).response = s.response := rfl
@[simp] theorem State.setResultFlag_draw (x : Reg) (r : Byte) (c : Bool) : (s.setResultFlag x r c).draw = s.draw := rfl
@[simp] theorem State.setResultFlag_drawCount (x : Reg) (r : Byte) (c : Bool) : (s.setResultFlag x r c).drawCount = s.drawCount := rfl
@[simp] theorem State.setResultFlag_inputs (x : Reg) (r : Byte) (c : Bool) : (s.setResultFlag x r c).inputs = s.inputs := rfl
@[simp] theorem State.setResultFlag_pixel (x : Reg) (r : Byte) (c : Bool) (px py : Nat) : (s.setResultFlag x r c).pixel px py = s.pixel px py := rfl
@[simp] theorem State.setResultFlag_memRead (x : Reg) (r : Byte) (c : Bool) (p : Nat) : (s.setResultFlag x r c).memRead p = s.memRead p := rfl
@[simp] theorem State.setResultFlag_keyDown (x : Reg) (r : Byte) (c : Bool) (k : Nat) : (s.setResultFlag x r c).keyDown k = s.keyDown k := rfl

variable {s}

/-! ### memWriteList: only memory changes -/

@[simp] theorem State.memWriteList_v (bs : List Byte) : ∀ (s : State) (a : Nat), (s.memWriteList a bs).v = s.v := by
  induction bs with
  | nil => intro s a; rfl
  | cons b bs ih => intro s a; exact ih (s.memWrite a b) (a + 1)
@[simp] theorem State.memWriteList_i (bs : List Byte) : ∀ (s : State) (a : Nat), (s.memWriteList a bs).i = s.i := by
  induction bs with
  | nil => intro s a; rfl
  | cons b bs ih => intro s a; exact ih (s.memWrite a b) (a + 1)
@[simp] theorem State.memWriteList_pc (bs : List Byte) : ∀ (s : State) (a : Nat), (s.memWriteList a bs).pc = s.pc := by
  induction bs with
  | nil => intro s a; rfl
  | cons b bs ih => intro s a; exact ih (s.memWrite a b) (a + 1)
@[simp] theorem State.memWriteList_sp (bs : List Byte) : ∀ (s : State) (a : Nat), (s.memWriteList a bs).sp = s.sp := by
  induction bs with
  | nil => intro s a; rfl
  | cons b bs ih => intro s a; exact ih (s.memWrite a b) (a + 1)
@[simp] theorem State.memWriteList_stack (bs : List Byte) : ∀ (s : State) (a : Nat), (s.memWriteList a bs).stack = s.stack := by
  induction bs with
  | nil => intro s a; rfl
  | cons b bs ih => intro s a; exact ih (s.memWrite a b) (a + 1)
@[simp] theorem State.memWriteList_dt (bs : List Byte) : ∀ (s : State) (a : Nat), (s.memWriteList a bs).dt = s.dt := by
  induction bs with
  | nil => intro s a; rfl
  | cons b bs ih => intro s a; exact ih (s.memWrite a b) (a + 1)
@[simp] theorem State.memWriteList_st (bs : List Byte) : ∀ (s : State) (a : Nat), (s.memWriteList a bs).st = s.st := by
  induction bs with
  | nil => intro s a; rfl
  | cons b bs ih => intro s a; exact ih (s.memWrite a b) (a + 1)
@[simp] theorem State.memWriteList_key (bs : List Byte) : ∀ (s : State) (a : Nat), (s.memWriteList a bs).key = s.key := by
  induction bs with
  | nil => intro s a; rfl
  | cons b bs ih => intro s a; exact ih (s.memWrite a b) (a + 1)
@[simp] theorem State.memWriteList_fb (bs : List Byte) : ∀ (s : State) (a : Nat), (s.memWriteList a bs).fb = s.fb := by
  induction bs with
  | nil => intro s a; rfl
  | cons b bs ih => intro s a; exact ih (s.memWrite a b) (a + 1)
@[simp] theorem State.memWriteList_cfg (bs : List Byte) : ∀ (s : State) (a : Nat), (s.memWriteList a bs).cfg = s.cfg := by
  induction bs with
  | nil => intro s a; rfl
  | cons b bs ih => intro s a; exact ih (s.memWrite a b) (a + 1)
@[simp] theorem State.memWriteList_started (bs : List Byte) : ∀ (s : State) (a : Nat), (s.memWriteList a bs).started = s.started := by
  induction bs with
  | nil => intro s a; rfl
  | cons b bs ih => intro s a; exact ih (s.memWrite a b) (a + 1)
@[simp] theorem State.memWriteList_halted (bs : List Byte) : ∀ (s : State) (a : Nat), (s.memWriteList a bs).halted = s.halted := by
  induction bs with
  | nil => intro s a; rfl
  | cons b bs ih => intro s a; exact ih (s.memWrite a b) (a + 1)
@[simp] theorem State.memWriteList_response (bs : List Byte) : ∀ (s : State) (a : Nat), (s.memWriteList a bs).response = s.response := by
  induction bs with
  | nil => intro s a; rfl
  | cons b bs ih => intro s a; exact ih (s.memWrite a b) (a + 1)
@[simp] theorem State.memWriteList_draw (bs : List Byte) : ∀ (s : State) (a : Nat), (s.memWriteList a bs).draw = s.draw := by
  induction bs with
  | nil => intro s a; rfl
  | cons b bs ih => intro s a; exact ih (s.memWrite a b) (a + 1)
@[simp] theorem State.memWriteList_drawCount (bs : List Byte) : ∀ (s : State) (a : Nat), (s.memWriteList a bs).drawCount = s.drawCount := by
  induction bs with
  | nil => intro s a; rfl
  | cons b bs ih => intro s a; exact ih (s.memWrite a b) (a + 1)
@[simp] theorem State.memWriteList_inputs (bs : List Byte) : ∀ (s : State) (a : Nat), (s.memWriteList a bs).inputs = s.inputs := by
  induction bs with
  | nil => intro s a; rfl
  | cons b bs ih => intro s a; exact ih (s.memWrite a b) (a + 1)
@[simp] theorem State.memWriteList_getV (bs : List Byte) (s : State) (a : Nat) (y : Reg) : (s.memWriteList a bs).getV y = s.getV y := by
  simp only [State.getV, State.memWriteList_v]
@[simp] theorem State.memWriteList_pixel (bs : List Byte) (s : State) (a : Nat) (px py : Nat) : (s.memWriteList a bs).pixel px py = s.pixel px py := by
  simp only [State.pixel, State.memWriteList_fb]
@[simp] theorem State.memWriteList_keyDown (bs : List Byte) (s : State) (a : Nat) (k : Nat) : (s.memWriteList a bs).keyDown k = s.keyDown k := by
  simp only [State.keyDown, State.memWriteList_key]

/-! ### loadRegs: only V registers change -/

@[simp] theorem State.loadRegs_i (s : State) (a : Nat) : ∀ n, (s.loadRegs a n).i = s.i
  | 0 => rfl
  | n + 1 => State.loadRegs_i s a n
@[simp] theorem State.loadRegs_pc (s : State) (a : Nat) : ∀ n, (s.loadRegs a n).pc = s.pc
  | 0 => rfl
  | n + 1 => State.loadRegs_pc s a n
@[simp] theorem State.loadRegs_sp (s : State) (a : Nat) : ∀ n, (s.loadRegs a n).sp = s.sp
  | 0 => rfl
  | n + 1 => State.loadRegs_sp s a n
@[simp] theorem State.loadRegs_stack (s : State) (a : Nat) : ∀ n, (s.loadRegs a n).stack = s.stack
  | 0 => rfl
  | n + 1 => State.loadRegs_stack s a n
@[simp] theorem State.loadRegs_dt (s : State) (a : Nat) : ∀ n, (s.loadRegs a n).dt = s.dt
  | 0 => rfl
  | n + 1 => State.loadRegs_dt s a n
@[simp] theorem State.loadRegs_st (s : State) (a : Nat) : ∀ n, (s.loadRegs a n).st = s.st
  | 0 => rfl
  | n + 1 => State.loadRegs_st s a n
@[simp] theorem State.loadRegs_key (s : State) (a : Nat) : ∀ n, (s.loadRegs a n).key = s.key
  | 0 => rfl
  | n + 1 => State.loadRegs_key s a n
@[simp] theorem State.loadRegs_fb (s : State) (a : Nat) : ∀ n, (s.loadRegs a n).fb = s.fb
  | 0 => rfl
  | n + 1 => State.loadRegs_fb s a n
@[simp] theorem State.loadRegs_mem (s : State) (a : Nat) : ∀ n, (s.loadRegs a n).mem = s.mem
  | 0 => rfl
  | n + 1 => State.loadRegs_mem s a n
@[simp] theorem State.loadRegs_cfg (s : State) (a : Nat) : ∀ n, (s.loadRegs a n).cfg = s.cfg
  | 0 => rfl
  | n + 1 => State.loadRegs_cfg s a n
@[simp] theorem State.loadRegs_started (s : State) (a : Nat) : ∀ n, (s.loadRegs a n).started = s.started
  | 0 => rfl
  | n + 1 => State.loadRegs_started s a n
@[simp] theorem State.loadRegs_halted (s : State) (a : Nat) : ∀ n, (s.loadRegs a n).halted = s.halted
  | 0 => rfl
  | n + 1 => State.loadRegs_halted s a n
@[simp] theorem State.loadRegs_response (s : State) (a : Nat) : ∀ n, (s.loadRegs a n).response = s.response
  | 0 => rfl
  | n + 1 => State.loadRegs_response s a n
@[simp] theorem State.loadRegs_draw (s : State) (a : Nat) : ∀ n, (s.loadRegs a n).draw = s.draw
  | 0 => rfl
  | n + 1 => State.loadRegs_draw s a n
@[simp] theorem State.loadRegs_drawCount (s : State) (a : Nat) : ∀ n, (s.loadRegs a n).drawCount = s.drawCount
  | 0 => rfl
  | n + 1 => State.loadRegs_drawCount s a n
@[simp] theorem State.loadRegs_inputs (s : State) (a : Nat) : ∀ n, (s.loadRegs a n).inputs = s.inputs
  | 0 => rfl
  | n + 1 => State.loadRegs_inputs s a n
@[simp] theorem State.loadRegs_pixel (s : State) (a n : Nat) (px py : Nat) : (s.loadRegs a n).pixel px py = s.pixel px py := by
  simp only [State.pixel, State.loadRegs_fb]
@[simp] theorem State.loadRegs_memRead (s : State) (a n : Nat) (p : Nat) : (s.loadRegs a n).memRead p = s.memRead p := by
  simp only [State.memRead, State.loadRegs_mem]
@[simp] theorem State.loadRegs_keyDown (s : State) (a n : Nat) (k : Nat) : (s.loadRegs a n).keyDown k = s.keyDown k := by
  simp only [State.keyDown, State.loadRegs_key]

end Sys2Proof.Machine
end

