-- ==== Sys2Proof/Laws/Display.lean ====
section
/-! SUPPORT. The framebuffer: a pixel after a flip, and what one column and one pixel of the blit do. -/

namespace Sys2Proof.Machine

/-- Flipping a pixel changes that pixel, in coordinates modulo 64 and 32, and no other. -/
theorem Framebuffer.pixel_flip (f : Framebuffer) (x y px py : Nat) :
    (f.flip x y).pixel px py =
      (f.pixel px py ^^ (decide (px % 64 = x % 64) && decide (py % 32 = y % 32))) := by
  have hx : px % 64 < 64 := Nat.mod_lt px (by decide)
  by_cases hy : py % 32 = y % 32
  · have hyy : y % 32 = py % 32 := hy.symm
    simp [Framebuffer.flip, Framebuffer.pixel, displayH, displayW, hy, hx, eq_comm]
  · have hyy : ¬ y % 32 = py % 32 := fun h => hy h.symm
    simp [Framebuffer.flip, Framebuffer.pixel, displayH, displayW, hy, hyy]

/-- Every pixel of a cleared framebuffer is 0 (44_display.md R81). -/
@[simp] theorem Framebuffer.pixel_clear (x y : Nat) : Framebuffer.clear.pixel x y = false := by
  simp [Framebuffer.clear, Framebuffer.pixel]

/-- One set sprite bit: the pixel is flipped, and the collision flag takes in the pixel it turns off (R82). -/
theorem plotPixel_spec (acc : Framebuffer × Bool) (px py : Nat) :
    (plotPixel acc px py).1 = acc.1.flip px py ∧ (plotPixel acc px py).2 = (acc.2 || acc.1.pixel px py) :=
  ⟨rfl, rfl⟩

/-- A column whose sprite bit is 0 changes nothing and cannot collide (R82). -/
theorem blitCols_zero_bit {row : Byte} {c : Nat} (h : row.getLsbD (7 - c) = false) (x0 y : Nat)
    (acc : Framebuffer × Bool) : blitCols row x0 y acc (c + 1) = blitCols row x0 y acc c := by
  simp [blitCols, h]

/-- A column whose sprite bit is 1 plots the pixel at the wrapped coordinates (R82). -/
theorem blitCols_one_bit {row : Byte} {c : Nat} (h : row.getLsbD (7 - c) = true) (x0 y : Nat)
    (acc : Framebuffer × Bool) :
    blitCols row x0 y acc (c + 1) = plotPixel (blitCols row x0 y acc c) ((x0 + c) % 64) (y % 32) := by
  simp [blitCols, h, displayW, displayH]

end Sys2Proof.Machine
end

