-- ==== Sys2Proof/Laws/Memory.lean ====
section
/-! SUPPORT. Memory: a read after a write, the canonical form is kept by every write, and equal memories are equal
lists. -/

namespace Sys2Proof.Machine

/-! ### Reads below the first entry -/

theorem Memory.read_below {m : Memory} : ∀ {lo a : Nat}, Memory.wfFrom lo m = true → a < lo →
    Memory.read m a = Memory.blank := by
  induction m with
  | nil => intros; rfl
  | cons c m ih =>
    obtain ⟨k, b⟩ := c
    intro lo a h ha
    simp only [Memory.wfFrom, Bool.and_eq_true, decide_eq_true_eq] at h
    have hk : k ≠ a := by omega
    simp only [Memory.read, hk, if_false]
    exact ih h.2 (by omega)

/-- A tail in form from a higher address is in form from a lower one. -/
theorem Memory.wfFrom_mono {m : Memory} {lo lo' : Nat} (h : Memory.wfFrom lo m = true) (hl : lo' ≤ lo) :
    Memory.wfFrom lo' m = true := by
  cases m with
  | nil => rfl
  | cons c m =>
    obtain ⟨k, b⟩ := c
    simp only [Memory.wfFrom, Bool.and_eq_true, decide_eq_true_eq] at h ⊢
    exact ⟨⟨⟨by omega, h.1.1.2⟩, h.1.2⟩, h.2⟩

/-! ### Read after write -/

theorem Memory.read_write_ne {a c : Nat} (hne : c ≠ a) (b : Byte) : ∀ m : Memory,
    Memory.read (Memory.write m a b) c = Memory.read m c := by
  have hac : a ≠ c := fun h => hne h.symm
  intro m
  induction m with
  | nil => by_cases hb : b = Memory.blank <;> simp [Memory.write, Memory.read, hb, hac]
  | cons e m ih =>
    obtain ⟨k, d⟩ := e
    by_cases hlt : a < k
    · by_cases hb : b = Memory.blank <;> simp [Memory.write, Memory.read, hlt, hb, hac]
    · by_cases heq : a = k
      · subst heq
        by_cases hb : b = Memory.blank <;> simp [Memory.write, Memory.read, hb, hac]
      · simp only [Memory.write, hlt, heq, if_false, Memory.read, ih]

theorem Memory.read_write_same {a : Nat} (b : Byte) : ∀ {m : Memory} {lo : Nat}, Memory.wfFrom lo m = true →
    Memory.read (Memory.write m a b) a = b := by
  intro m
  induction m with
  | nil => intro lo _; by_cases hb : b = Memory.blank <;> simp [Memory.write, Memory.read, hb]
  | cons e m ih =>
    obtain ⟨k, d⟩ := e
    intro lo h
    have hm : Memory.wfFrom (k + 1) m = true := by
      simp only [Memory.wfFrom, Bool.and_eq_true] at h; exact h.2
    by_cases hlt : a < k
    · by_cases hb : b = Memory.blank
      · have hk : k ≠ a := by omega
        simp only [Memory.write, hlt, hb, if_true, Memory.read, hk, if_false]
        exact Memory.read_below hm (by omega)
      · simp [Memory.write, Memory.read, hlt, hb]
    · by_cases heq : a = k
      · subst heq
        by_cases hb : b = Memory.blank
        · simp only [Memory.write, Nat.lt_irrefl, if_false, if_true, hb]
          exact Memory.read_below hm (by omega)
        · simp [Memory.write, Memory.read, hb]
      · have hk : k ≠ a := fun h => heq h.symm
        simp only [Memory.write, hlt, heq, if_false, Memory.read, hk]
        exact ih hm

/-! ### Every write keeps the canonical form -/

theorem Memory.write_wfFrom {a : Nat} (b : Byte) (ha : a < memSize) : ∀ {m : Memory} {lo : Nat},
    lo ≤ a → Memory.wfFrom lo m = true → Memory.wfFrom lo (Memory.write m a b) = true := by
  intro m
  induction m with
  | nil =>
    intro lo hlo _
    by_cases hb : b = Memory.blank <;> simp [Memory.write, Memory.wfFrom, hb, hlo, ha]
  | cons e m ih =>
    obtain ⟨k, d⟩ := e
    intro lo hlo h
    have h' := h
    simp only [Memory.wfFrom, Bool.and_eq_true, decide_eq_true_eq] at h'
    obtain ⟨⟨⟨hlok, hk⟩, hd⟩, hm⟩ := h'
    by_cases hlt : a < k
    · by_cases hb : b = Memory.blank
      · simpa only [Memory.write, hlt, hb, if_true] using h
      · have hak : a + 1 ≤ k := hlt
        simp [Memory.write, Memory.wfFrom, hlt, hb, hlo, ha, hak, hk, hm, show d ≠ Memory.blank by simpa using hd]
    · by_cases heq : a = k
      · subst heq
        by_cases hb : b = Memory.blank
        · simp only [Memory.write, Nat.lt_irrefl, if_false, if_true, hb]
          exact Memory.wfFrom_mono hm (by omega)
        · simp [Memory.write, Memory.wfFrom, hb, hlo, ha, hm]
      · have hka : k + 1 ≤ a := by omega
        simp only [Memory.write, hlt, heq, if_false, Memory.wfFrom, Bool.and_eq_true, decide_eq_true_eq]
        exact ⟨⟨⟨hlok, hk⟩, hd⟩, ih hka hm⟩

theorem effAddr_lt (a : Nat) : effAddr a < memSize := Nat.mod_lt a (by decide)

/-- What one MemWrite does to the form. -/
theorem Memory.write_wf {m : Memory} (a : Nat) (b : Byte) (h : m.wf = true) :
    (m.write (effAddr a) b).wf = true :=
  Memory.write_wfFrom b (effAddr_lt a) (Nat.zero_le _) h

/-- What a list of MemWrites does to the form. -/
theorem State.memWriteList_wf (bs : List Byte) : ∀ (s : State) (a : Nat), s.mem.wf = true →
    (s.memWriteList a bs).mem.wf = true := by
  induction bs with
  | nil => intro s a h; exact h
  | cons b bs ih => intro s a h; exact ih (s.memWrite a b) (a + 1) (Memory.write_wf a b h)

/-! ### MemRead after MemWrite (20_memory.md R26) -/

theorem State.memRead_memWrite_same (s : State) (a : Nat) (b : Byte) (h : s.mem.wf = true) :
    (s.memWrite a b).memRead a = b :=
  Memory.read_write_same b h

theorem State.memRead_memWrite_ne (s : State) {a c : Nat} (b : Byte) (hne : effAddr c ≠ effAddr a) :
    (s.memWrite a b).memRead c = s.memRead c :=
  Memory.read_write_ne hne b s.mem

/-- A list of MemWrites leaves every byte outside its range alone. -/
theorem State.memRead_memWriteList_outside (bs : List Byte) : ∀ (s : State) (a c : Nat),
    (∀ k, k < bs.length → effAddr c ≠ effAddr (a + k)) → (s.memWriteList a bs).memRead c = s.memRead c := by
  induction bs with
  | nil => intros; rfl
  | cons b bs ih =>
    intro s a c h
    have h0 : effAddr c ≠ effAddr a := by simpa using h 0 (by simp)
    have hrest : ∀ k, k < bs.length → effAddr c ≠ effAddr (a + 1 + k) := by
      intro k hk
      have := h (k + 1) (by simpa using hk)
      rwa [show a + 1 + k = a + (k + 1) by omega]
    rw [State.memWriteList, ih _ _ _ hrest, State.memRead_memWrite_ne s b h0]

/-- A list of at most 4096 MemWrites leaves each byte of its range with its value. -/
theorem State.memRead_memWriteList_inside (bs : List Byte) : ∀ (s : State) (a k : Nat), s.mem.wf = true →
    bs.length ≤ memSize → (hk : k < bs.length) → (s.memWriteList a bs).memRead (a + k) = bs[k] := by
  induction bs with
  | nil => intro s a k _ _ hk; exact absurd hk (by simp)
  | cons b bs ih =>
    intro s a k hwf hlen hk
    have hlen' : bs.length + 1 ≤ memSize := by simpa using hlen
    cases k with
    | zero =>
      have hout : ∀ j, j < bs.length → effAddr (a + 0) ≠ effAddr (a + 1 + j) := by
        intro j hj; simp only [effAddr, memSize] at *; omega
      rw [State.memWriteList, State.memRead_memWriteList_outside bs _ _ _ hout]
      exact State.memRead_memWrite_same s a b hwf
    | succ k =>
      have hk' : k < bs.length := by simpa using hk
      rw [State.memWriteList, show a + (k + 1) = a + 1 + k by omega,
        ih (s.memWrite a b) (a + 1) k (Memory.write_wf a b hwf) (by omega) hk']
      rfl

end Sys2Proof.Machine
end

