-- ==== Sys2Proof/Laws/Registers.lean ====
section
/-! SUPPORT. V registers: a read after a write, the result and flag writes, and the register-range transfers. -/

namespace Sys2Proof.Machine

@[simp] theorem State.getV_setV_same (s : State) (x : Reg) (b : Byte) : (s.setV x b).getV x = b := by
  simp [State.getV, State.setV]

theorem State.getV_setV_ne (s : State) {x y : Reg} (b : Byte) (h : y ≠ x) : (s.setV x b).getV y = s.getV y := by
  have hn : x.toNat ≠ y.toNat := fun e => h (BitVec.eq_of_toNat_eq e.symm)
  simp [State.getV, State.setV, Vector.getElem_set_ne, hn]

/-- Every V register after a write to one. -/
theorem State.getV_setV (s : State) (x y : Reg) (b : Byte) :
    (s.setV x b).getV y = if y = x then b else s.getV y := by
  by_cases h : y = x
  · subst h; simp
  · simp [h, State.getV_setV_ne]

/-- Every V register after a result and flag write: VF holds the flag, whatever the destination (42_alu.md R61). -/
theorem State.getV_setResultFlag (s : State) (x y : Reg) (r : Byte) (c : Bool) :
    (s.setResultFlag x r c).getV y = if y = regF then flagByte c else if y = x then r else s.getV y := by
  simp only [State.setResultFlag, State.getV_setV]

/-- FX55's list holds the values of V0..VX in order (43_index_memory.md R79). -/
@[simp] theorem State.regList_length (s : State) (x : Reg) : (s.regList x).length = x.toNat + 1 := by
  simp [State.regList]

theorem State.regList_getElem (s : State) (x : Reg) (k : Nat) (h : k < (s.regList x).length) :
    (s.regList x)[k] = s.getV (BitVec.ofNat 4 k) := by
  simp [State.regList]

/-- Every V register after the first `n` loads of FX65 (43_index_memory.md R80). -/
theorem State.getV_loadRegs (s : State) (a : Nat) (y : Reg) : ∀ n, n ≤ 16 →
    (s.loadRegs a n).getV y = if y.toNat < n then s.memRead (a + y.toNat) else s.getV y
  | 0, _ => by simp [State.loadRegs]
  | n + 1, hn => by
    have hmod : n % 16 = n := Nat.mod_eq_of_lt hn
    have hy : (y = BitVec.ofNat 4 n) ↔ y.toNat = n := by
      constructor
      · intro h; simp [h, hmod]
      · intro h; exact BitVec.eq_of_toNat_eq (by simp [h, hmod])
    rw [State.loadRegs, State.getV_setV, State.getV_loadRegs s a y n (by omega)]
    by_cases h : y.toNat = n
    · simp [hy.2 h, hmod]
    · have h1 : y ≠ BitVec.ofNat 4 n := fun e => h (hy.1 e)
      have h2 : y.toNat < n + 1 ↔ y.toNat < n := by omega
      simp [h1, h2]

end Sys2Proof.Machine
end

