-- ==== Sys2Proof/Laws/Ops.lean ====
section
/-! SUPPORT. Once for each shared operation, everything it can do: the stack, error reports, the STEP command and the
step. -/

namespace Sys2Proof.Machine

/-! ### The call stack -/

/-- A push either writes the entry at SP and counts it, or there is no such entry. -/
theorem State.push_cases (s : State) (w : Word) :
    (s.sp < s.stack.length ∧ s.push w = some { s with stack := s.stack.set s.sp w, sp := s.sp + 1 }) ∨
    (s.stack.length ≤ s.sp ∧ s.push w = none) := by
  by_cases h : s.sp < s.stack.length
  · exact .inl ⟨h, by simp [State.push, h]⟩
  · exact .inr ⟨by omega, by simp [State.push, h]⟩

/-- A pop either takes the entry below SP and leaves it in place, or there is no such entry. -/
theorem State.pop_cases (s : State) :
    (∃ w, s.stack[s.sp - 1]? = some w ∧ s.pop = some (w, { s with sp := s.sp - 1 })) ∨
    (s.stack[s.sp - 1]? = none ∧ s.pop = none) := by
  cases h : s.stack[s.sp - 1]? with
  | some w => exact .inl ⟨w, rfl, by simp [State.pop, h]⟩
  | none => exact .inr ⟨rfl, by simp [State.pop, h]⟩

/-! ### Error reports -/

/-- The halted mark under `halt`. -/
theorem haltMark_halt {s : State} {r : ErrorReport} (h : policyFor s.cfg.errorPolicy r.kind = .halt) :
    haltMark s r = some r := by simp [haltMark, h]

/-- The halted mark under `continue`. -/
theorem haltMark_carryOn {s : State} {r : ErrorReport} (h : policyFor s.cfg.errorPolicy r.kind = .carryOn) :
    haltMark s r = s.halted := by simp [haltMark, h]

/-- What the halted mark after a report can be. -/
theorem haltMark_cases (s : State) (r : ErrorReport) :
    (policyFor s.cfg.errorPolicy r.kind = .halt ∧ haltMark s r = some r) ∨
    (policyFor s.cfg.errorPolicy r.kind = .carryOn ∧ haltMark s r = s.halted) := by
  cases h : policyFor s.cfg.errorPolicy r.kind with
  | halt => exact .inl ⟨rfl, haltMark_halt h⟩
  | carryOn => exact .inr ⟨rfl, haltMark_carryOn h⟩

/-- An error report is a next state and only the returned value and the halted mark differ. -/
theorem raise_eq (k : ErrorKind) (ins addr : Word) (s : State) :
    raise k ins addr s = .next (s.reported ⟨k, ins, addr⟩) := rfl

/-! ### SYS, RET and CALL, by case -/

/-- RET: the report on an empty stack, the pop, or the model fault (41_control_flow.md R53). -/
theorem execRet_cases (s : State) :
    (s.sp = 0 ∧ execRet s = raise .stackUnderflow (encode .ret) s.insAddr (s.setPc programStart)) ∨
    (s.sp ≠ 0 ∧ ∃ w, s.stack[s.sp - 1]? = some w ∧ execRet s = .next { s with sp := s.sp - 1, pc := w }) ∨
    (s.sp ≠ 0 ∧ s.stack[s.sp - 1]? = none ∧ execRet s = outOfBounds (encode .ret) s.insAddr) := by
  by_cases h : s.sp = 0
  · exact .inl ⟨h, by simp [execRet, h]⟩
  · obtain ⟨w, hw, hp⟩ | ⟨hw, hp⟩ := s.pop_cases
    · exact .inr (.inl ⟨h, w, hw, by simp [execRet, h, hp, State.setPc]⟩)
    · exact .inr (.inr ⟨h, hw, by simp [execRet, h, hp]⟩)

/-- CALL: the report on a full stack, the push, or the model fault (41_control_flow.md R55). -/
theorem execCall_cases (nnn : Addr12) (s : State) :
    (s.sp = s.cfg.stackDepth ∧ execCall nnn s = raise .stackOverflow (encode (.call nnn)) s.insAddr s) ∨
    (s.sp ≠ s.cfg.stackDepth ∧ s.sp < s.stack.length ∧
      execCall nnn s = .next { s with stack := s.stack.set s.sp s.pc, sp := s.sp + 1, pc := zextAddr nnn }) ∨
    (s.sp ≠ s.cfg.stackDepth ∧ s.stack.length ≤ s.sp ∧
      execCall nnn s = outOfBounds (encode (.call nnn)) s.insAddr) := by
  by_cases h : s.sp = s.cfg.stackDepth
  · exact .inl ⟨h, by simp [execCall, h]⟩
  · obtain ⟨hl, hp⟩ | ⟨hl, hp⟩ := s.push_cases s.pc
    · exact .inr (.inl ⟨h, hl, by simp [execCall, h, hp, State.setPc]⟩)
    · exact .inr (.inr ⟨h, hl, by simp [execCall, h, hp]⟩)

/-! ### STEP and the step -/

/-- The STEP command: refused while halted, or the decoded instruction on the post-fetch state, or the report of an
UNKNOWN word (30_encoding.md R45). -/
theorem stepCommand_cases (d : Option Byte) (s : State) :
    (∃ r, s.halted = some r ∧ stepCommand d s = .refused (.stepHalted r)) ∨
    (s.halted = none ∧ ∃ i, decode s.cfg.strict59 s.fetchWord = .ok i ∧
      stepCommand d s = exec i (s.postFetch d)) ∨
    (s.halted = none ∧ (∃ e, decode s.cfg.strict59 s.fetchWord = .error e) ∧
      stepCommand d s = raise .unknownInstruction s.fetchWord s.pc (s.postFetch d)) := by
  cases h : s.halted with
  | some r => exact .inl ⟨r, rfl, by simp [stepCommand, h]⟩
  | none =>
    cases hd : decode s.cfg.strict59 s.fetchWord with
    | ok i => exact .inr (.inl ⟨rfl, i, rfl, by simp [stepCommand, h, hd]⟩)
    | error e => exact .inr (.inr ⟨rfl, ⟨e, rfl⟩, by simp [stepCommand, h, hd]⟩)

/-- A step with no command waiting is a STEP. -/
theorem step_of_no_inputs {s : State} (h : s.inputs = []) : step s = stepCommand none s := by
  have hd : s.dequeue = s := by cases s; simp only at h; subst h; rfl
  simp [step, State.nextCommand, h, hd, command]

/-- A step with a command waiting performs the oldest one. -/
theorem step_of_inputs {s : State} {c : Command} {q : List Command} (h : s.inputs = c :: q) :
    step s = command c { s with inputs := q } := by
  simp [step, State.nextCommand, h, State.dequeue]

/-! ### The sound output -/

@[simp] theorem soundStopEdge_iff (s t : State) : soundStopEdge s t = true ↔ s.st ≠ 0 ∧ t.st = 0 := by
  simp [soundStopEdge, State.soundActive]

end Sys2Proof.Machine
end

