-- ==== Sys2Proof/Laws/Frames.lean ====
section
/-! SUPPORT. The frame of every named update: all it may change. Statements about an instruction's frame follow from
these. -/

namespace Sys2Proof.Machine

theorem KeepsAllBut.refl (p : Component → Prop) (s : State) : KeepsAllBut p s s := by
  intro c _; cases c <;> rfl

theorem KeepsAllBut.mono {p q : Component → Prop} {s t : State} (h : KeepsAllBut p s t) (hpq : ∀ c, p c → q c) :
    KeepsAllBut q s t := fun c hc => h c (fun hp => hc (hpq c hp))

theorem Component.same_trans {c : Component} {s t u : State} (h1 : c.same s t) (h2 : c.same t u) : c.same s u := by
  cases c <;> exact Eq.trans h2 h1

theorem KeepsAllBut.trans {p : Component → Prop} {s t u : State} (h1 : KeepsAllBut p s t) (h2 : KeepsAllBut p t u) :
    KeepsAllBut p s u := fun c hc => Component.same_trans (h1 c hc) (h2 c hc)

theorem keeps_setV (s : State) (x : Reg) (b : Byte) : KeepsAllBut (fun c => c = .v x) s (s.setV x b) := by
  intro c hc
  cases c with
  | v y => exact State.getV_setV_ne s b (fun h => hc (by rw [h]))
  | _ => rfl

theorem keeps_setResultFlag (s : State) (x : Reg) (r : Byte) (f : Bool) :
    KeepsAllBut (fun c => c = .v x ∨ c = .v 0xF#4) s (s.setResultFlag x r f) :=
  ((keeps_setV s x r).mono (fun _ => .inl)).trans ((keeps_setV _ regF (flagByte f)).mono (fun _ => .inr))

theorem keeps_setI (s : State) (w : Word) : KeepsAllBut (fun c => c = .i) s (s.setI w) := by
  intro c hc; cases c <;> first | rfl | exact absurd rfl hc

theorem keeps_setPc (s : State) (w : Word) : KeepsAllBut (fun c => c = .pc) s (s.setPc w) := by
  intro c hc; cases c <;> first | rfl | exact absurd rfl hc

theorem keeps_setDt (s : State) (b : Byte) : KeepsAllBut (fun c => c = .dt) s (s.setDt b) := by
  intro c hc; cases c <;> first | rfl | exact absurd rfl hc

theorem keeps_setSt (s : State) (b : Byte) : KeepsAllBut (fun c => c = .st) s (s.setSt b) := by
  intro c hc; cases c <;> first | rfl | exact absurd rfl hc

theorem keeps_skipIf (s : State) (b : Bool) : KeepsAllBut (fun c => c = .pc) s (s.skipIf b) := by
  cases b
  · exact KeepsAllBut.refl _ s
  · exact keeps_setPc s (s.pc + 2)

theorem keeps_drawTaken (s : State) : KeepsAllBut (fun c => c = .draw ∨ c = .drawCount) s s.drawTaken := by
  intro c hc; cases c <;> first | rfl | exact absurd (.inl rfl) hc | exact absurd (.inr rfl) hc

theorem keeps_reported (s : State) (r : ErrorReport) :
    KeepsAllBut (fun c => c = .response ∨ c = .halted) s (s.reported r) := by
  intro c hc; cases c <;> first | rfl | exact absurd (.inl rfl) hc | exact absurd (.inr rfl) hc

theorem keeps_respond (s : State) (r : Response) : KeepsAllBut (fun c => c = .response) s (s.respond r) := by
  intro c hc; cases c <;> first | rfl | exact absurd rfl hc

theorem keeps_postFetch (s : State) (d : Option Byte) :
    KeepsAllBut (fun c => c = .pc ∨ c = .started ∨ c = .response ∨ c = .draw) s (s.postFetch d) := by
  intro c hc; cases c <;> first | rfl | simp at hc

/-- Stores of a list of bytes change those bytes of memory and nothing else (20_memory.md R26). -/
theorem keeps_memWriteList (s : State) (a : Nat) (bs : List Byte) :
    KeepsAllBut (inBytes a bs.length) s (s.memWriteList a bs) := by
  intro c hc
  cases c with
  | mem b =>
    refine State.memRead_memWriteList_outside bs s a b (fun k hk h => hc ⟨k, hk, b, rfl, h⟩)
  | _ => simp [Component.same]

/-- The loads of FX65 change the registers they load and nothing else (43_index_memory.md R80). -/
theorem keeps_loadRegs (s : State) (a n : Nat) (hn : n ≤ 16) :
    KeepsAllBut (fun c => ∃ y : Reg, y.toNat < n ∧ c = .v y) s (s.loadRegs a n) := by
  intro c hc
  cases c with
  | v y =>
    have h : ¬ y.toNat < n := fun h => hc ⟨y, h, rfl⟩
    simp [Component.same, State.getV_loadRegs s a y n hn, h]
  | _ => simp [Component.same]

/-- What the host is told by a report (60_exceptions.md R96, R97). -/
theorem reported_from (s : State) (k : ErrorKind) (ins addr : Word) :
    ReportedFrom k ins addr s (s.reported ⟨k, ins, addr⟩) :=
  ⟨rfl, fun h => haltMark_halt h, fun h => haltMark_carryOn h⟩

end Sys2Proof.Machine
end

