-- ==== Sys2Proof/Laws/PerInstr.lean ====
section
/-! SUPPORT. The family `EncodesRow`: the encoded word of every instruction is of its own row of the opcode map, by
mask and match (30_encoding.md R43). One lemma per constructor. -/

namespace Sys2Proof.Laws.EncodesRow

/-- The encoder's word has the fixed bits of the instruction's row. -/
def Statement (i : Instr) : Prop := encode i &&& i.rowMaskMatch.1 = i.rowMaskMatch.2

/-- The mask 0xF000 keeps the family nibble of a word with NNN. -/
theorem mask_wordNNN (op : BitVec 4) (nnn : Addr12) : wordNNN op nnn &&& 0xF000#16 = op ++ 0x000#12 := by
  apply BitVec.eq_of_getLsbD_eq
  intro i hi
  unfold wordNNN
  rw [BitVec.getLsbD_and, BitVec.getLsbD_append, BitVec.getLsbD_append]
  interval_cases i <;> simp

/-- The mask 0xF000 keeps the family nibble of a word with X and NN. -/
theorem mask_wordXNN (op : BitVec 4) (x : Reg) (nn : Byte) :
    wordXNN op x nn &&& 0xF000#16 = op ++ 0x000#12 := by
  apply BitVec.eq_of_getLsbD_eq
  intro i hi
  unfold wordXNN
  rw [BitVec.getLsbD_and, BitVec.getLsbD_append (x := op ++ x) (y := nn), BitVec.getLsbD_append (x := op) (y := x),
    BitVec.getLsbD_append]
  interval_cases i <;> simp

/-- The mask 0xF0FF keeps the family nibble and the low byte. -/
theorem maskByte_wordXNN (op : BitVec 4) (x : Reg) (nn : Byte) :
    wordXNN op x nn &&& 0xF0FF#16 = wordXNN op 0#4 nn := by
  apply BitVec.eq_of_getLsbD_eq
  intro i hi
  unfold wordXNN
  rw [BitVec.getLsbD_and, BitVec.getLsbD_append (x := op ++ x) (y := nn), BitVec.getLsbD_append (x := op) (y := x),
    BitVec.getLsbD_append (x := op ++ 0#4) (y := nn), BitVec.getLsbD_append (x := op) (y := 0#4)]
  interval_cases i <;> simp

/-- The mask 0xF000 keeps the family nibble of a word with X, Y and N. -/
theorem mask_wordXYN (op : BitVec 4) (x y : Reg) (n : BitVec 4) :
    wordXYN op x y n &&& 0xF000#16 = op ++ 0x000#12 := by
  apply BitVec.eq_of_getLsbD_eq
  intro i hi
  unfold wordXYN
  rw [BitVec.getLsbD_and, BitVec.getLsbD_append (x := op ++ x ++ y) (y := n),
    BitVec.getLsbD_append (x := op ++ x) (y := y), BitVec.getLsbD_append (x := op) (y := x), BitVec.getLsbD_append]
  interval_cases i <;> simp

/-- The mask 0xF00F keeps the family nibble and the low nibble. -/
theorem maskNibble_wordXYN (op : BitVec 4) (x y : Reg) (n : BitVec 4) :
    wordXYN op x y n &&& 0xF00F#16 = wordXYN op 0#4 0#4 n := by
  apply BitVec.eq_of_getLsbD_eq
  intro i hi
  unfold wordXYN
  rw [BitVec.getLsbD_and, BitVec.getLsbD_append (x := op ++ x ++ y) (y := n),
    BitVec.getLsbD_append (x := op ++ x) (y := y), BitVec.getLsbD_append (x := op) (y := x),
    BitVec.getLsbD_append (x := op ++ 0#4 ++ 0#4) (y := n), BitVec.getLsbD_append (x := op ++ 0#4) (y := 0#4),
    BitVec.getLsbD_append (x := op) (y := 0#4)]
  interval_cases i <;> simp

theorem sys (nnn : Addr12) : Statement (.sys nnn) := mask_wordNNN _ _
theorem cls : Statement .cls := rfl
theorem ret : Statement .ret := rfl
theorem jp (nnn : Addr12) : Statement (.jp nnn) := mask_wordNNN _ _
theorem call (nnn : Addr12) : Statement (.call nnn) := mask_wordNNN _ _
theorem seByte (x : Reg) (nn : Byte) : Statement (.seByte x nn) := mask_wordXNN _ _ _
theorem sneByte (x : Reg) (nn : Byte) : Statement (.sneByte x nn) := mask_wordXNN _ _ _
theorem seReg (x y : Reg) : Statement (.seReg x y) := maskNibble_wordXYN _ _ _ _
theorem ldByte (x : Reg) (nn : Byte) : Statement (.ldByte x nn) := mask_wordXNN _ _ _
theorem addByte (x : Reg) (nn : Byte) : Statement (.addByte x nn) := mask_wordXNN _ _ _
theorem ldReg (x y : Reg) : Statement (.ldReg x y) := maskNibble_wordXYN _ _ _ _
theorem orReg (x y : Reg) : Statement (.orReg x y) := maskNibble_wordXYN _ _ _ _
theorem andReg (x y : Reg) : Statement (.andReg x y) := maskNibble_wordXYN _ _ _ _
theorem xorReg (x y : Reg) : Statement (.xorReg x y) := maskNibble_wordXYN _ _ _ _
theorem addReg (x y : Reg) : Statement (.addReg x y) := maskNibble_wordXYN _ _ _ _
theorem sub (x y : Reg) : Statement (.sub x y) := maskNibble_wordXYN _ _ _ _
theorem shr (x y : Reg) : Statement (.shr x y) := maskNibble_wordXYN _ _ _ _
theorem subn (x y : Reg) : Statement (.subn x y) := maskNibble_wordXYN _ _ _ _
theorem shl (x y : Reg) : Statement (.shl x y) := maskNibble_wordXYN _ _ _ _
theorem sneReg (x y : Reg) : Statement (.sneReg x y) := maskNibble_wordXYN _ _ _ _
theorem ldI (nnn : Addr12) : Statement (.ldI nnn) := mask_wordNNN _ _
theorem jpV0 (nnn : Addr12) : Statement (.jpV0 nnn) := mask_wordNNN _ _
theorem rnd (x : Reg) (nn : Byte) : Statement (.rnd x nn) := mask_wordXNN _ _ _
theorem drw (x y : Reg) (n : BitVec 4) : Statement (.drw x y n) := mask_wordXYN _ _ _ _
theorem skp (x : Reg) : Statement (.skp x) := maskByte_wordXNN _ _ _
theorem sknp (x : Reg) : Statement (.sknp x) := maskByte_wordXNN _ _ _
theorem ldVxDt (x : Reg) : Statement (.ldVxDt x) := maskByte_wordXNN _ _ _
theorem ldVxK (x : Reg) : Statement (.ldVxK x) := maskByte_wordXNN _ _ _
theorem ldDtVx (x : Reg) : Statement (.ldDtVx x) := maskByte_wordXNN _ _ _
theorem ldStVx (x : Reg) : Statement (.ldStVx x) := maskByte_wordXNN _ _ _
theorem addI (x : Reg) : Statement (.addI x) := maskByte_wordXNN _ _ _
theorem ldF (x : Reg) : Statement (.ldF x) := maskByte_wordXNN _ _ _
theorem ldB (x : Reg) : Statement (.ldB x) := maskByte_wordXNN _ _ _
theorem ldMemVx (x : Reg) : Statement (.ldMemVx x) := maskByte_wordXNN _ _ _
theorem ldVxMem (x : Reg) : Statement (.ldVxMem x) := maskByte_wordXNN _ _ _

end Sys2Proof.Laws.EncodesRow
end

