-- ==== Sys2Proof/Tests/Slice0.lean ====
section
/-! SUPPORT. Tests. Expected results are the spec's: the words from the rows of 30_encoding.md R43, the step results from
95_test_vectors.md section 2 and the examples of the instruction rules; after them, a witness for the hypotheses of each
statement. -/

namespace Sys2Proof.Tests
open Sys2Proof Sys2Proof.Machine

/-! ### Well-formedness: an ill-formed term for each check -/

theorem test_wf_refuses_sys_with_cls_field : (Instr.sys 0x0E0#12).wf = false := by decide
theorem test_wf_refuses_sys_with_ret_field : (Instr.sys 0x0EE#12).wf = false := by decide
theorem test_config_refuses_shallow_stack : ({ Config.defaults with stackDepth := 15 } : Config).wf = false := by decide
theorem test_config_refuses_high_font : ({ Config.defaults with fontBase := 0x1B1 } : Config).wf = false := by decide
theorem test_config_takes_highest_font : ({ Config.defaults with fontBase := 0x1B0 } : Config).wf = true := by decide
theorem test_memory_refuses_blank_entry : Memory.wf [(5, 0)] = false := by decide
theorem test_memory_refuses_unsorted : Memory.wf [(5, 1), (4, 1)] = false := by decide
theorem test_memory_refuses_repeat : Memory.wf [(5, 1), (5, 2)] = false := by decide
theorem test_memory_refuses_high_address : Memory.wf [(4096, 1)] = false := by decide

/-! ### Decoding: one word per constructor, bit by bit from the encoding column of the opcode table -/

theorem test_decode_sys : decode true 0b0000000100100011#16 = .ok (.sys 0x123#12) := by decide
theorem test_decode_cls : decode true 0b0000000011100000#16 = .ok .cls := by decide
theorem test_decode_ret : decode true 0b0000000011101110#16 = .ok .ret := by decide
theorem test_decode_jp : decode true 0b0001101010111100#16 = .ok (.jp 0xABC#12) := by decide
theorem test_decode_call : decode true 0b0010010000000000#16 = .ok (.call 0x400#12) := by decide
theorem test_decode_seByte : decode true 0b0011101000000101#16 = .ok (.seByte 0xA#4 0x05#8) := by decide
theorem test_decode_sneByte : decode true 0b0100101000000101#16 = .ok (.sneByte 0xA#4 0x05#8) := by decide
theorem test_decode_seReg : decode true 0b0101000100100000#16 = .ok (.seReg 0x1#4 0x2#4) := by decide
theorem test_decode_ldByte : decode true 0b0110101001011100#16 = .ok (.ldByte 0xA#4 0x5C#8) := by decide
theorem test_decode_addByte : decode true 0b0111101000010000#16 = .ok (.addByte 0xA#4 0x10#8) := by decide
theorem test_decode_ldReg : decode true 0b1000000100100000#16 = .ok (.ldReg 0x1#4 0x2#4) := by decide
theorem test_decode_orReg : decode true 0b1000000100100001#16 = .ok (.orReg 0x1#4 0x2#4) := by decide
theorem test_decode_andReg : decode true 0b1000000100100010#16 = .ok (.andReg 0x1#4 0x2#4) := by decide
theorem test_decode_xorReg : decode true 0b1000000100100011#16 = .ok (.xorReg 0x1#4 0x2#4) := by decide
theorem test_decode_addReg : decode true 0b1000000000010100#16 = .ok (.addReg 0x0#4 0x1#4) := by decide
theorem test_decode_sub : decode true 0b1000000000010101#16 = .ok (.sub 0x0#4 0x1#4) := by decide
theorem test_decode_shr : decode true 0b1000000100100110#16 = .ok (.shr 0x1#4 0x2#4) := by decide
theorem test_decode_subn : decode true 0b1000000000010111#16 = .ok (.subn 0x0#4 0x1#4) := by decide
theorem test_decode_shl : decode true 0b1000000100101110#16 = .ok (.shl 0x1#4 0x2#4) := by decide
theorem test_decode_sneReg : decode true 0b1001101010110000#16 = .ok (.sneReg 0xA#4 0xB#4) := by decide
theorem test_decode_ldI : decode true 0b1010001011110000#16 = .ok (.ldI 0x2F0#12) := by decide
theorem test_decode_jpV0 : decode true 0b1011001100000000#16 = .ok (.jpV0 0x300#12) := by decide
theorem test_decode_rnd : decode true 0b1100001100001111#16 = .ok (.rnd 0x3#4 0x0F#8) := by decide
theorem test_decode_drw : decode true 0b1101101010110101#16 = .ok (.drw 0xA#4 0xB#4 0x5#4) := by decide
theorem test_decode_skp : decode true 0b1110000110011110#16 = .ok (.skp 0x1#4) := by decide
theorem test_decode_sknp : decode true 0b1110000110100001#16 = .ok (.sknp 0x1#4) := by decide
theorem test_decode_ldVxDt : decode true 0b1111001100000111#16 = .ok (.ldVxDt 0x3#4) := by decide
theorem test_decode_ldVxK : decode true 0b1111010100001010#16 = .ok (.ldVxK 0x5#4) := by decide
theorem test_decode_ldDtVx : decode true 0b1111000100010101#16 = .ok (.ldDtVx 0x1#4) := by decide
theorem test_decode_ldStVx : decode true 0b1111001000011000#16 = .ok (.ldStVx 0x2#4) := by decide
theorem test_decode_addI : decode true 0b1111001100011110#16 = .ok (.addI 0x3#4) := by decide
theorem test_decode_ldF : decode true 0b1111010100101001#16 = .ok (.ldF 0x5#4) := by decide
theorem test_decode_ldB : decode true 0b1111001000110011#16 = .ok (.ldB 0x2#4) := by decide
theorem test_decode_ldMemVx : decode true 0b1111001001010101#16 = .ok (.ldMemVx 0x2#4) := by decide
theorem test_decode_ldVxMem : decode true 0b1111001001100101#16 = .ok (.ldVxMem 0x2#4) := by decide

theorem test_decode_unknown_5 : decode true 0x5121#16 = .error .unknown5 := by decide
theorem test_decode_unknown_8 : decode true 0x800F#16 = .error .unknown8 := by decide
theorem test_decode_unknown_9 : decode true 0x9AB7#16 = .error .unknown9 := by decide
theorem test_decode_unknown_e : decode true 0xE0A0#16 = .error .unknownE := by decide
theorem test_decode_unknown_f : decode true 0xF085#16 = .error .unknownF := by decide
theorem test_decode_loose_5 : decode false 0x5121#16 = .ok (.seReg 0x1#4 0x2#4) := by decide
theorem test_decode_superchip_is_sys : decode true 0x00FE#16 = .ok (.sys 0x0FE#12) := by decide
theorem test_decode_table_word : decodeTableWord 16 0xDAB5 = some (.drw 0xA#4 0xB#4 0x5#4) := by decide
theorem test_decode_truncated : decodeBytes true [0x12#8] = .error .truncated := by decide

/-! ### Small states -/

/-- The state a step answers with, if any. -/
def after : Host.Outcome State Fault Refusal → Option State
  | .next t => some t
  | .fault _ => none
  | .refused _ => none

/-- One step that runs the word `w` placed at PC. -/
def run1 (w : Nat) (s : State) : Option State := after (step (s.withFetchWord 16 w))

/-- Reset, with two V registers set. -/
def regs (x : Reg) (a : Byte) (y : Reg) (b : Byte) : State := (State.reset.setV y b).setV x a

/-- Reset, with `n` calls on the stack, all from 0x204. -/
def nested (n : Nat) : State := { State.reset with sp := n, stack := List.replicate n 0x206#16 ++ List.replicate (16 - n) 0 }

/-- Reset, with bytes at 0x300 and I there. -/
def atI (bs : List Byte) : State := (State.reset.memWriteList 0x300 bs).setI 0x300#16

/-- Reset, with keys pressed. -/
def pressed (ks : List Nat) : State := { State.reset with key := Vector.ofFn (fun k => ks.contains k.val) }

/-- Reset under other parameters. -/
def under (c : Config) : State := State.resetWith c 0 []

/-! ### One step each (95_test_vectors.md section 2, and the rules' examples) -/

theorem test_sys_reports : (run1 0x0123 State.reset).map (fun t => (t.pc, t.response)) =
    some (0x202#16, .report ⟨.unknownInstruction, 0x0123#16, 0x200#16⟩) := by decide
theorem test_sys_nop : (run1 0x0123 (under { Config.defaults with sysPolicy := .nop })).map
    (fun t => (t.pc, t.response, t.halted)) = some (0x202#16, .ok, none) := by decide
theorem test_cls : (run1 0x00E0 { State.reset with fb := Vector.replicate 32 0x5#64 }).map (·.fb) =
    some (Vector.replicate 32 0) := by decide
theorem test_ret_pops : (run1 0x00EE (nested 1)).map (fun t => (t.pc, t.sp, t.stack.head?)) =
    some (0x206#16, 0, some 0x206#16) := by decide
theorem test_ret_underflow : (run1 0x00EE (State.reset.setPc 0x340#16)).map (fun t => (t.pc, t.sp, t.halted)) =
    some (0x200#16, 0, some ⟨.stackUnderflow, 0x00EE#16, 0x340#16⟩) := by decide
theorem test_jp : (run1 0x1ABC State.reset).map (·.pc) = some 0xABC#16 := by decide
theorem test_call_deepest : (run1 0x2400 (nested 15)).map (fun t => (t.pc, t.sp, t.stack[15]?)) =
    some (0x400#16, 16, some 0x202#16) := by decide
theorem test_call_overflow : (run1 0x2400 (nested 16)).map (fun t => (t.pc, t.sp, t.halted)) =
    some (0x202#16, 16, some ⟨.stackOverflow, 0x2400#16, 0x200#16⟩) := by decide
theorem test_se_byte_taken : (run1 0x3142 (regs 1 0x42 2 0)).map (·.pc) = some 0x204#16 := by decide
theorem test_se_byte_wraps : (run1 0x3000 (State.reset.setPc 0xFFFE#16)).map (·.pc) = some 0x0002#16 := by decide
theorem test_sne_byte : (run1 0x4142 (regs 1 0x43 2 0)).map (·.pc) = some 0x204#16 := by decide
theorem test_se_reg : (run1 0x5120 (regs 1 7 2 8)).map (·.pc) = some 0x202#16 := by decide
theorem test_se_reg_loose : (run1 0x5121 (under { Config.defaults with strict59 := false })).map (·.pc) =
    some 0x204#16 := by decide
theorem test_sne_reg : (run1 0x9120 (regs 1 7 2 8)).map (·.pc) = some 0x204#16 := by decide
theorem test_jp_v0_not_reduced : (run1 0xBFFF (regs 0 0xFF 1 0)).map (·.pc) = some 0x10FE#16 := by decide
theorem test_ld_byte : (run1 0x6A5C State.reset).map (·.getV 0xA) = some 0x5C#8 := by decide
theorem test_add_byte_wraps_no_flag : (run1 0x7105 (regs 1 0xFE 15 0x55)).map (fun t => (t.getV 1, t.getV 15)) =
    some (0x03#8, 0x55#8) := by decide
theorem test_ld_reg : (run1 0x8120 (regs 1 0x0F 2 0xF0)).map (·.getV 1) = some 0xF0#8 := by decide
theorem test_or : (run1 0x8121 (regs 1 0x0F 2 0xF0)).map (·.getV 1) = some 0xFF#8 := by decide
theorem test_and : (run1 0x8122 (regs 1 0x3C 2 0x0F)).map (·.getV 1) = some 0x0C#8 := by decide
theorem test_xor : (run1 0x8123 (regs 1 0xFF 2 0x0F)).map (·.getV 1) = some 0xF0#8 := by decide
theorem test_add_reg_carry : (run1 0x8014 (regs 0 0xFF 1 0x01)).map (fun t => (t.getV 0, t.getV 15)) =
    some (0#8, 1#8) := by decide
theorem test_add_reg_x_is_f : (run1 0x8F24 (regs 15 0x10 2 0x20)).map (·.getV 15) = some 0#8 := by decide
theorem test_sub_borrow : (run1 0x8125 (regs 1 0x05 2 0x07)).map (fun t => (t.getV 1, t.getV 15)) =
    some (0xFE#8, 0#8) := by decide
theorem test_sub_y_is_f : (run1 0x81F5 (regs 1 0x03 15 0x01)).map (fun t => (t.getV 1, t.getV 15)) =
    some (0x02#8, 1#8) := by decide
theorem test_shr_ignores_y : (run1 0x8126 (regs 1 0x05 2 0xFF)).map (fun t => (t.getV 1, t.getV 15)) =
    some (0x02#8, 1#8) := by decide
theorem test_shr_x_is_f : (run1 0x8F26 (regs 15 0x03 2 0)).map (·.getV 15) = some 1#8 := by decide
theorem test_subn : (run1 0x8127 (regs 1 0x07 2 0x05)).map (fun t => (t.getV 1, t.getV 15)) =
    some (0xFE#8, 0#8) := by decide
theorem test_shl : (run1 0x812E (regs 1 0x81 2 0)).map (fun t => (t.getV 1, t.getV 15)) = some (0x02#8, 1#8) := by decide
theorem test_shl_x_is_f : (run1 0x8F2E (regs 15 0x40 2 0)).map (·.getV 15) = some 0#8 := by decide
theorem test_rnd_masks_supplied_draw :
    (after (command (.step (some 0xA7#8)) (State.reset.withFetchWord 16 0xC30F))).map (·.getV 3) = some 0x07#8 := by decide
theorem test_rnd_full_mask_is_the_draw :
    (after (command (.step (some 0x5A#8)) (State.reset.withFetchWord 16 0xC1FF))).map
      (fun t => (t.getV 1, t.draw, t.drawCount)) = some (0x5A#8, none, 1) := by decide
theorem test_ld_i : (run1 0xAFFF State.reset).map (·.i) = some 0x0FFF#16 := by decide
theorem test_add_i_not_reduced : (run1 0xF11E ((regs 1 1 15 0x55).setI 0x0FFF#16)).map (fun t => (t.i, t.getV 15)) =
    some (0x1000#16, 0x55#8) := by decide
theorem test_add_i_wraps : (run1 0xF11E ((regs 1 1 2 0).setI 0xFFFF#16)).map (·.i) = some 0#16 := by decide
theorem test_ld_f_low_nibble : (run1 0xF529 (regs 5 0x3B 2 0)).map (·.i) = some 0x0087#16 := by decide
theorem test_ld_b_wraps : (run1 0xF033 ((regs 0 0x80 1 0).setI 0x0FFF#16)).map
    (fun t => (t.memRead 0xFFF, t.memRead 0, t.memRead 1)) = some (1#8, 2#8, 8#8) := by decide
theorem test_ld_b_255 : (run1 0xF033 ((regs 0 0xFF 1 0).setI 0x0300#16)).map
    (fun t => (t.memRead 0x300, t.memRead 0x301, t.memRead 0x302)) = some (2#8, 5#8, 5#8) := by decide
theorem test_ld_mem_vx_inclusive : (run1 0xF155 ((regs 0 0x77 1 0x88).setI 0x0300#16)).map
    (fun t => (t.memRead 0x300, t.memRead 0x301, t.memRead 0x302, t.i)) = some (0x77#8, 0x88#8, 0#8, 0x300#16) := by decide
theorem test_ld_vx_mem_inclusive : (run1 0xF265 (atI [1, 2, 3, 4])).map
    (fun t => (t.getV 0, t.getV 1, t.getV 2, t.getV 3)) = some (1#8, 2#8, 3#8, 0#8) := by decide
theorem test_ld_vx_mem_vf : (run1 0xFF65 ((State.reset.memWriteList 0x30F [0x99]).setI 0x300#16)).map (·.getV 15) =
    some 0x99#8 := by decide
theorem test_drw_wraps_corner : (run1 0xD012 ((atI [0xC0, 0xC0]).setV 0 63 |>.setV 1 31)).map
    (fun t => (t.pixel 63 31, t.pixel 0 31, t.pixel 63 0, t.pixel 0 0, t.getV 15)) =
    some (true, true, true, true, 0#8) := by decide
theorem test_drw_partial_overlap : (run1 0xD011 { atI [0xC0] with fb := (Vector.replicate 32 0).set 0 1#64 }).map
    (fun t => (t.pixel 0 0, t.pixel 1 0, t.getV 15)) = some (false, true, 1#8) := by decide
theorem test_skp_low_nibble : (run1 0xE19E ((pressed [10]).setV 1 0x3A)).map (·.pc) = some 0x204#16 := by decide
theorem test_sknp : (run1 0xE1A1 ((pressed [10]).setV 1 0x0A)).map (·.pc) = some 0x202#16 := by decide
theorem test_ld_vx_dt : (run1 0xF307 (State.reset.setDt 0x2A)).map (·.getV 3) = some 0x2A#8 := by decide
theorem test_ld_vx_k_waits : (run1 0xF50A (State.reset.setPc 0x240#16)).map (·.pc) = some 0x240#16 := by decide
theorem test_ld_vx_k_least : (run1 0xF50A (pressed [9, 3])).map (fun t => (t.getV 5, t.pc)) =
    some (3#8, 0x202#16) := by decide
theorem test_ld_dt_vx : (run1 0xF115 (regs 1 0x3C 2 0)).map (·.dt) = some 0x3C#8 := by decide
theorem test_ld_st_vx_edge : (run1 0xF218 (State.reset.setSt 9)).map (fun t => (t.st, soundStopEdge (State.reset.setSt 9) t)) =
    some (0#8, true) := by decide

/-! ### Fetch, host commands and error policy -/

theorem test_fetch_wraps : ((State.reset.memWriteList 0xFFF [0xA1, 0x23]).setPc 0x0FFF#16).fetchWord = 0xA123#16 := by decide
theorem test_unknown_halts : (run1 0xFFFF State.reset).map (fun t => (t.pc, t.halted)) =
    some (0x202#16, some ⟨.unknownInstruction, 0xFFFF#16, 0x200#16⟩) := by decide
theorem test_tick_floor : (after (command .tick (State.reset.setSt 3))).map (fun t => (t.dt, t.st)) =
    some (0#8, 2#8) := by decide
theorem test_tick_stops_sound : (after (command .tick (State.reset.setSt 1))).map (soundStopEdge (State.reset.setSt 1)) =
    some true := by decide
theorem test_font_loaded : (after (command (.loadFont fontGlyphs) State.reset)).map
    (fun t => (t.memRead 0x050, t.memRead 0x09F)) = some (0xF0#8, 0x80#8) := by decide
theorem test_fb_index :
    (State.readFb { State.reset with fb := (Vector.replicate 32 0).set 1 8#64 })[67]? = some true := by
  simp only [State.readFb, Vector.getElem?_ofFn]
  decide
theorem test_reset_step_runs_zero_memory : (after (step State.reset)).map (·.halted) =
    some (some ⟨.unknownInstruction, 0#16, 0x200#16⟩) := by decide

/-! ### Witnesses: states and operands that meet the hypotheses of the statements -/

/-- A state that meets the invariant, with `n` entries on the stack, for n up to 16. -/
theorem nested_inv {n : Nat} (h : n ≤ 16) : (nested n).Inv where
  cfg_wf := rfl
  mem_wf := rfl
  stack_length := by simp [nested, State.reset, State.resetWith, Config.defaults]; omega
  sp_le := h
  halted_started := fun hs => absurd rfl hs
  halted_policy := fun _ hs => by simp [nested, State.reset, State.resetWith] at hs
  halted_kind := fun _ hs => by simp [nested, State.reset, State.resetWith] at hs

/-- A halted state. -/
def stopped : State :=
  { State.reset with started := true, halted := some ⟨.stackOverflow, 0x2200#16, 0x200#16⟩ }

theorem witness_DecodeOfEncodeIsTheInstruction :
    (Instr.sys 0#12).wf = true ∧ (Instr.sys 0xFFF#12).wf = true ∧ (Instr.drw 15 15 15).wf = true := by decide
theorem witness_EncodeOfDecodeIsTheWord : decode true 0x0123#16 = .ok (.sys 0x123#12) := by decide
theorem witness_UnknownWordsAreTheReservedOnes :
    decode true 0x5FFF#16 = .error .unknown5 ∧ decode true 0x8008#16 = .error .unknown8 ∧
    decode true 0x9001#16 = .error .unknown9 ∧ decode false 0xE09F#16 = .error .unknownE ∧
    decode false 0xF000#16 = .error .unknownF := by decide
theorem witness_DecodeFollowsTheOpcodeMap :
    0x00E0#16 &&& (Instr.sys 0).rowMaskMatch.1 = (Instr.sys 0).rowMaskMatch.2 ∧
    0x5120#16 &&& (Instr.seReg 0 0).rowMaskMatch.1 = (Instr.seReg 0 0).rowMaskMatch.2 ∧
    decode true 0x5120#16 = .ok (.seReg 1 2) := by decide
theorem witness_StepRunsTheDecodedInstruction :
    State.reset.halted = none ∧ State.reset.inputs = [] ∧
    decode State.reset.cfg.strict59 State.reset.fetchWord = .ok (.sys 0#12) ∧
    ({ State.reset with inputs := [.step (some 1), .tick] } : State).inputs = [.step (some 1), .tick] ∧
    ({ stopped with inputs := [.tick] } : State).inputs = [.tick] ∧ stopped.inputs = [] := by decide
theorem witness_UnknownWordIsReported :
    (State.reset.withFetchWord 16 0xFFFF).halted = none ∧
    decode (State.reset.withFetchWord 16 0xFFFF).cfg.strict59 (State.reset.withFetchWord 16 0xFFFF).fetchWord =
      .error .unknownF := by decide
theorem witness_EveryReportCarriesItsWordAndAddress : ∃ t, command (.step none) State.reset = .next t := ⟨_, rfl⟩
theorem witness_HaltedUntilReset :
    stopped.halted = some ⟨.stackOverflow, 0x2200#16, 0x200#16⟩ ∧
    ({ stopped with inputs := [.tick] } : State).nextCommand ≠ .reset ∧
    ∃ t, step { stopped with inputs := [.tick] } = .next t := ⟨by decide, by decide, _, rfl⟩
theorem witness_PlacedWordIsFetchedNext : State.reset.mem.wf = true ∧
    ((State.reset.setPc 0xFFFF#16).withFetchWord 16 0xA123).fetchWord = 0xA123#16 := by decide
theorem witness_SysFollowsItsPolicy :
    State.reset.cfg.sysPolicy = .unknown ∧ (under { Config.defaults with sysPolicy := .nop }).cfg.sysPolicy = .nop ∧
    0x00E1#16 &&& 0xF000#16 = 0x0000#16 ∧ 0x00E1#16 ≠ 0x00E0#16 ∧ 0x00E1#16 ≠ 0x00EE#16 := by decide
theorem witness_ReturnPopsOrReports :
    State.reset.sp = 0 ∧ (nested 1).Inv ∧ (nested 1).sp ≠ 0 ∧ (nested 16).Inv ∧ (nested 16).sp ≠ 0 :=
  ⟨by decide, nested_inv (by decide), by decide, nested_inv (by decide), by decide⟩
theorem witness_CallPushesOrReports :
    (nested 16).sp = (nested 16).cfg.stackDepth ∧ (nested 0).Inv ∧ (nested 0).sp ≠ (nested 0).cfg.stackDepth ∧
    (nested 15).Inv ∧ (nested 15).sp ≠ (nested 15).cfg.stackDepth :=
  ⟨by decide, nested_inv (by decide), by decide, nested_inv (by decide), by decide⟩
theorem witness_ReturnUndoesCall : (nested 15).Inv ∧ (nested 15).sp ≠ (nested 15).cfg.stackDepth ∧
    ∃ t, exec (.call 0x400) (nested 15) = .next t := ⟨nested_inv (by decide), by decide, _, rfl⟩
theorem witness_decode_masks :
    0x3A05#16 &&& 0xF000#16 = 0x3000#16 ∧ 0x8124#16 &&& 0xF00F#16 = 0x8004#16 ∧ 0xF265#16 &&& 0xF0FF#16 = 0xF065#16 ∧
    0x5127#16 &&& 0xF000#16 = 0x5000#16 := by decide
theorem witness_flag_destinations : (0x1#4 : Reg) ≠ 0xF#4 := by decide
theorem witness_RandomIsTheMaskedDraw :
    ({ State.reset with draw := some 0xA7#8 } : State).draw = some 0xA7#8 ∧ State.reset.draw = none := by decide
theorem witness_FontLookupPointsAtTheGlyph : State.reset.cfg.wf = true ∧
    (under { Config.defaults with fontBase := 0x1B0 }).cfg.wf = true := by decide
theorem witness_memory_in_form : (atI [1, 0, 3]).mem.wf = true ∧ (State.reset.memWriteList 0xFFF [1, 2]).mem.wf = true := by decide
theorem witness_LoadAfterDumpRestoresRegisters : (atI [1]).mem.wf = true ∧
    ∃ t u : State, exec (.ldMemVx 3) (atI [1]) = .next t ∧ u.mem = t.mem ∧ u.i = (atI [1]).i ∧ u.getV 0 ≠ t.getV 0 :=
  ⟨by decide, _, ((atI [1]).memWriteList 0x300 ((atI [1]).regList 3)).setV 0 7, rfl, rfl, rfl, by decide⟩
theorem witness_FetchSeesAnEarlierStore : ∃ t, exec (.ldMemVx 1) (State.reset.setI 0x200#16) = .next t ∧
    (1#4 : Reg).toNat = (0#4 : Reg).toNat + 1 ∧ t.pc.toNat % 4096 = (0x200#16).toNat % 4096 := ⟨_, rfl, by decide, by decide⟩
theorem witness_MemoriesThatReadAlikeAreEqual :
    Memory.wf [(7, 1), (9, 2)] = true ∧ (Memory.write [(7, 1)] 9 2) = [(7, 1), (9, 2)] := by decide
theorem witness_sprite_covers : spriteCovers (atI [0xC0]) 63 31 1 0 31 ∧ ¬ spriteCovers (atI [0xC0]) 63 31 0 0 31 :=
  ⟨⟨0, 1, by decide, by decide, by decide, by decide, by decide⟩, fun ⟨_, _, h, _⟩ => absurd h (by omega)⟩
theorem witness_DrawFlagIsCollision :
    spriteCovers { atI [0x80] with fb := Vector.replicate 32 1#64 } 0 0 1 0 0 ∧
    State.pixel { atI [0x80] with fb := Vector.replicate 32 1#64 } 0 0 = true :=
  ⟨⟨0, 0, by decide, by decide, by decide, by decide, by decide⟩, by decide⟩
theorem witness_DrawingTwiceRestoresTheScreen : ∃ t u : State, exec (.drw 0 1 1) (atI [0x80]) = .next t ∧ u.fb = t.fb ∧
    u.mem = (atI [0x80]).mem ∧ u.i = (atI [0x80]).i ∧ u.getV 0 = (atI [0x80]).getV 0 ∧ u.getV 1 = (atI [0x80]).getV 1 :=
  ⟨_, _, rfl, rfl, rfl, rfl, by decide, by decide⟩
theorem witness_WaitForKeyRepeatsOrTakesTheLeast :
    (∀ k, k < 16 → State.reset.keyDown k = false) ∧ (pressed [0]).keyDown 0 = true ∧
    (pressed [15]).keyDown 15 = true ∧ (∀ j, j < 15 → (pressed [15]).keyDown j = false) := by decide
theorem witness_OnlyTheHostWritesKeys : ∃ t, step { State.reset with inputs := [.setKeys (Vector.replicate 16 true)] } =
    .next t ∧ t.key ≠ State.reset.key := ⟨_, rfl, by decide⟩
theorem witness_loads : State.reset.started = false ∧ stopped.started = true ∧
    (List.replicate 3584 (0 : Byte)).length ≤ 3584 ∧ 3584 < (List.replicate 3585 (0 : Byte)).length := by
  rw [List.length_replicate, List.length_replicate]; decide
theorem witness_BootLoadsCommute : (nested 0).Inv ∧ (nested 0).started = false := ⟨nested_inv (by decide), by decide⟩
theorem witness_ResetMeetsTheInvariant : Config.defaults.wf = true ∧
    ({ Config.defaults with stackDepth := 17, fontBase := 0 } : Config).wf = true := by decide
theorem witness_StepKeepsTheInvariant : (nested 3).Inv ∧ ∃ t, step (nested 3) = .next t :=
  ⟨nested_inv (by decide), _, rfl⟩
theorem witness_NoStepGoesOutOfBounds :
    ({ State.reset with sp := 17 } : State).sp ≠ 0 ∧ ({ State.reset with sp := 17 } : State).stack[16]? = none ∧
    ({ State.reset with sp := 17 } : State).sp ≠ Config.defaults.stackDepth := by decide
theorem witness_EachElementHasOnlyItsWriters :
    (∃ t, exec (.ldB 0) ((regs 0 9 1 0).setI 0x300#16) = .next t ∧ t.mem ≠ State.reset.mem) ∧
    (∃ t, exec (.ldI 5) State.reset = .next t ∧ t.i ≠ State.reset.i) ∧
    (∃ t, exec (.ldByte 15 5) State.reset = .next t ∧ t.getV 15 ≠ State.reset.getV 15) ∧
    (∃ t, exec (.shr 0 2) (regs 0 3 1 0) = .next t ∧ t.getV 0 ≠ (regs 0 3 1 0).getV 0 ∧ t.getV 15 ≠ (regs 0 3 1 0).getV 15) ∧
    (∃ t, exec (.ldVxMem 2) (atI [1, 2, 3]) = .next t ∧ t.getV 2 ≠ (atI [1, 2, 3]).getV 2) :=
  ⟨⟨_, rfl, by decide⟩, ⟨_, rfl, by decide⟩, ⟨_, rfl, by decide⟩, ⟨_, rfl, by decide, by decide⟩, ⟨_, rfl, by decide⟩⟩
theorem witness_SoundStopsOnlyByTickFx18OrReset :
    (∃ t, step { State.reset.setSt 1 with inputs := [.tick] } = .next t ∧ soundStopEdge (State.reset.setSt 1) t = true) ∧
    (∃ t, step { State.reset.setSt 9 with inputs := [.reset] } = .next t ∧ soundStopEdge (State.reset.setSt 9) t = true) ∧
    (∃ t, step ((State.reset.setSt 9).withFetchWord 16 0xF218) = .next t ∧ soundStopEdge (State.reset.setSt 9) t = true) :=
  ⟨⟨_, rfl, by decide⟩, ⟨_, rfl, by decide⟩, ⟨_, rfl, by decide⟩⟩
theorem witness_ParametersAndDrawsSurviveEveryStep : ∃ t, step (State.reset.withFetchWord 16 0xC0FF) = .next t ∧
    t.drawCount = 1 := ⟨_, rfl, by decide⟩

end Sys2Proof.Tests
end

section
/-!
PROOFS. The operand fields of a word as numbers (30_encoding.md R40): each is a slice of the word's bits, and a slice is
a quotient of the word's number taken modulo a power of two.
-/
namespace Sys2Proof

theorem toNat_slice {w : Nat} (b : BitVec w) (low width : Nat) :
    (b.extractLsb' low width).toNat = b.toNat / 2 ^ low % 2 ^ width := by
  rw [BitVec.extractLsb'_toNat, Nat.shiftRight_eq_div_pow]

theorem toNat_slice_zero {w : Nat} (b : BitVec w) (width : Nat) :
    (b.extractLsb' 0 width).toNat = b.toNat % 2 ^ width := by
  rw [toNat_slice, Nat.pow_zero, Nat.div_one]

/-- The family takes the top four bits, so nothing stands above it to be cut off by a modulus. -/
@[simp] theorem toNat_fieldOp (ins : Word) : (fieldOp ins).toNat = ins.toNat / 4096 := by
  have hslice : (fieldOp ins).toNat = ins.toNat / 4096 % 16 := toNat_slice ins 12 4
  have htop : ins.toNat / 4096 < 16 := Nat.div_lt_of_lt_mul ins.isLt
  rw [hslice, Nat.mod_eq_of_lt htop]

@[simp] theorem toNat_fieldX (ins : Word) : (fieldX ins).toNat = ins.toNat / 256 % 16 := toNat_slice ins 8 4

@[simp] theorem toNat_fieldY (ins : Word) : (fieldY ins).toNat = ins.toNat / 16 % 16 := toNat_slice ins 4 4

@[simp] theorem toNat_fieldN (ins : Word) : (fieldN ins).toNat = ins.toNat % 16 :=
  toNat_slice_zero ins 4

@[simp] theorem toNat_fieldNN (ins : Word) : (fieldNN ins).toNat = ins.toNat % 256 :=
  toNat_slice_zero ins 8

@[simp] theorem toNat_fieldNNN (ins : Word) : (fieldNNN ins).toNat = ins.toNat % 4096 :=
  toNat_slice_zero ins 12

/-- Settles O2: one slice lemma per field. -/
theorem fieldsStandAtTheirBits : Obligations.FieldsStandAtTheirBits := fun ins =>
  ⟨toNat_fieldOp ins, toNat_fieldX ins, toNat_fieldY ins, toNat_fieldN ins, toNat_fieldNN ins, toNat_fieldNNN ins⟩

end Sys2Proof
end

section
/-!
PROOFS. Control transfers (41_control_flow.md). The mask of the family nibble keeps the whole field `op`
(30_encoding.md R43), and a 12-bit address is the same number as a word (R54).
-/
namespace Sys2Proof

/-- The mask F000 is all ones at the family nibble, so the masked word has the word's own family. -/
theorem fieldOp_of_masked {ins pattern : Word} (h : ins &&& 0xF000#16 = pattern) : fieldOp ins = fieldOp pattern := by
  have hmask : (0xF000#16).extractLsb' 12 4 = BitVec.allOnes 4 := by decide
  rw [← h, fieldOp, fieldOp, BitVec.extractLsb'_and, hmask, BitVec.and_allOnes]

theorem decode_jp {ins : Word} (strict : Bool) (hop : fieldOp ins = 0x1#4) :
    decode strict ins = .ok (.jp (fieldNNN ins)) := by
  simp only [decode, hop]

end Sys2Proof

namespace Sys2Proof.Machine

@[simp] theorem toNat_zextAddr (nnn : Addr12) : (zextAddr nnn).toNat = nnn.toNat :=
  BitVec.toNat_setWidth_of_le (by decide)

theorem decodes_jp : Decodes 0xF000 0x1000 (fun ins => .jp (fieldNNN ins)) := fun strict _ hword =>
  decode_jp strict (fieldOp_of_masked hword)

theorem exec_jp (nnn : Addr12) (s : State) : exec (.jp nnn) s = .next (s.setPc (zextAddr nnn)) := rfl

/-- Settles O15: family 1 is JP, and JP is one write of PC. -/
theorem jumpSetsPc : Obligations.JumpSetsPc :=
  ⟨decodes_jp, fun nnn s => ⟨s.setPc (zextAddr nnn), exec_jp nnn s, toNat_zextAddr nnn, keeps_setPc s (zextAddr nnn)⟩⟩

end Sys2Proof.Machine
end

section
/-!
PROOFS. The instructions that write VX and no flag (42_alu.md R62 to R67). Families 6 and 7 are told by the family nibble
alone; the rows of family 8 have the mask F00F, which keeps the family nibble and N (30_encoding.md R43).
-/
namespace Sys2Proof

/-- A slice of a word is its pattern's slice where the mask is all ones. -/
theorem slice_of_masked {ins mask pattern : Word} {low width : Nat} (h : ins &&& mask = pattern)
    (hmask : mask.extractLsb' low width = BitVec.allOnes width) :
    ins.extractLsb' low width = pattern.extractLsb' low width := by
  rw [← h, BitVec.extractLsb'_and, hmask, BitVec.and_allOnes]

theorem fieldOp_of_maskedNibble {ins pattern : Word} (h : ins &&& 0xF00F#16 = pattern) :
    fieldOp ins = fieldOp pattern := slice_of_masked h (by decide)

theorem fieldN_of_maskedNibble {ins pattern : Word} (h : ins &&& 0xF00F#16 = pattern) :
    fieldN ins = fieldN pattern := slice_of_masked h (by decide)

theorem decode_ldByte {ins : Word} (strict : Bool) (hop : fieldOp ins = 0x6#4) :
    decode strict ins = .ok (.ldByte (fieldX ins) (fieldNN ins)) := by
  simp only [decode, hop]

theorem decode_addByte {ins : Word} (strict : Bool) (hop : fieldOp ins = 0x7#4) :
    decode strict ins = .ok (.addByte (fieldX ins) (fieldNN ins)) := by
  simp only [decode, hop]

theorem decode_family8 {ins : Word} (strict : Bool) (hop : fieldOp ins = 0x8#4) :
    decode strict ins = decodeFamily8 ins := by
  simp only [decode, hop]

end Sys2Proof

namespace Sys2Proof.Machine

theorem decodes_ldByte : Decodes 0xF000 0x6000 (fun ins => .ldByte (fieldX ins) (fieldNN ins)) :=
  fun strict _ hword => decode_ldByte strict (fieldOp_of_masked hword)

theorem decodes_addByte : Decodes 0xF000 0x7000 (fun ins => .addByte (fieldX ins) (fieldNN ins)) :=
  fun strict _ hword => decode_addByte strict (fieldOp_of_masked hword)

/-- A row of family 8 is decoded by its low nibble alone, the same for every word of the row. -/
theorem decodes_family8 {pattern : Word} {f : Word → Instr} (hop : fieldOp pattern = 0x8#4)
    (hrow : ∀ ins, fieldN ins = fieldN pattern → decodeFamily8 ins = .ok (f ins)) : Decodes 0xF00F pattern f := by
  intro strict ins hword
  have hop8 : fieldOp ins = 0x8#4 := (fieldOp_of_maskedNibble hword).trans hop
  rw [decode_family8 strict hop8]
  exact hrow ins (fieldN_of_maskedNibble hword)

theorem decodes_ldReg : Decodes 0xF00F 0x8000 (fun ins => .ldReg (fieldX ins) (fieldY ins)) :=
  decodes_family8 rfl fun ins (hn : fieldN ins = 0x0#4) => by simp only [decodeFamily8, hn]

theorem decodes_orReg : Decodes 0xF00F 0x8001 (fun ins => .orReg (fieldX ins) (fieldY ins)) :=
  decodes_family8 rfl fun ins (hn : fieldN ins = 0x1#4) => by simp only [decodeFamily8, hn]

theorem decodes_andReg : Decodes 0xF00F 0x8002 (fun ins => .andReg (fieldX ins) (fieldY ins)) :=
  decodes_family8 rfl fun ins (hn : fieldN ins = 0x2#4) => by simp only [decodeFamily8, hn]

theorem decodes_xorReg : Decodes 0xF00F 0x8003 (fun ins => .xorReg (fieldX ins) (fieldY ins)) :=
  decodes_family8 rfl fun ins (hn : fieldN ins = 0x3#4) => by simp only [decodeFamily8, hn]

theorem exec_ldByte (x : Reg) (nn : Byte) (s : State) : exec (.ldByte x nn) s = .next (s.setV x nn) := rfl

theorem exec_addByte (x : Reg) (nn : Byte) (s : State) :
    exec (.addByte x nn) s = .next (s.setV x (s.getV x + nn)) := rfl

theorem exec_ldReg (x y : Reg) (s : State) : exec (.ldReg x y) s = .next (s.setV x (s.getV y)) := rfl

theorem exec_orReg (x y : Reg) (s : State) : exec (.orReg x y) s = .next (s.setV x (s.getV x ||| s.getV y)) := rfl

theorem exec_andReg (x y : Reg) (s : State) : exec (.andReg x y) s = .next (s.setV x (s.getV x &&& s.getV y)) := rfl

theorem exec_xorReg (x y : Reg) (s : State) : exec (.xorReg x y) s = .next (s.setV x (s.getV x ^^^ s.getV y)) := rfl

/-- Settles O21: families 6 and 7 each make one write of VX. -/
theorem loadAndAddImmediate : Obligations.LoadAndAddImmediate := by
  refine ⟨decodes_ldByte, decodes_addByte, fun x nn s => ⟨?load, ?add⟩⟩
  case load => exact ⟨_, exec_ldByte x nn s, s.getV_setV_same x nn, keeps_setV s x nn⟩
  case add =>
    refine ⟨_, exec_addByte x nn s, ?_, keeps_setV s x _⟩
    rw [State.getV_setV_same, BitVec.toNat_add]

/-- Settles O22: the first four rows of family 8 each make one write of VX, and a bitwise operation of the model is the
Boolean operation at each bit. -/
theorem moveAndBitwiseWriteVx : Obligations.MoveAndBitwiseWriteVx := by
  refine ⟨decodes_ldReg, decodes_orReg, decodes_andReg, decodes_xorReg, fun x y s => ⟨?move, ?or, ?and, ?xor⟩⟩
  case move => exact ⟨_, exec_ldReg x y s, s.getV_setV_same x _, keeps_setV s x _⟩
  case or =>
    refine ⟨_, exec_orReg x y s, fun k _ => ?_, keeps_setV s x _⟩
    rw [State.getV_setV_same, BitVec.getLsbD_or]
  case and =>
    refine ⟨_, exec_andReg x y s, fun k _ => ?_, keeps_setV s x _⟩
    rw [State.getV_setV_same, BitVec.getLsbD_and]
  case xor =>
    refine ⟨_, exec_xorReg x y s, fun k _ => ?_, keeps_setV s x _⟩
    rw [State.getV_setV_same, BitVec.getLsbD_xor]

end Sys2Proof.Machine
end

section
/-!
PROOFS. The index register (43_index_memory.md). Family A is told by the family nibble alone (30_encoding.md R43), and its
one write puts the 12-bit address, zero-extended, into I (R75).
-/
namespace Sys2Proof

theorem decode_ldI {ins : Word} (strict : Bool) (hop : fieldOp ins = 0xA#4) :
    decode strict ins = .ok (.ldI (fieldNNN ins)) := by
  simp only [decode, hop]

end Sys2Proof

namespace Sys2Proof.Machine

theorem decodes_ldI : Decodes 0xF000 0xA000 (fun ins => .ldI (fieldNNN ins)) := fun strict _ hword =>
  decode_ldI strict (fieldOp_of_masked hword)

theorem exec_ldI (nnn : Addr12) (s : State) : exec (.ldI nnn) s = .next (s.setI (zextAddr nnn)) := rfl

/-- Settles O27: family A is LD I, and LD I is one write of I. -/
theorem loadIndexSetsI : Obligations.LoadIndexSetsI := by
  refine ⟨decodes_ldI, fun nnn s => ⟨s.setI (zextAddr nnn), exec_ldI nnn s, ?value, keeps_setI s (zextAddr nnn)⟩⟩
  case value => rw [State.setI_i, toNat_zextAddr]

end Sys2Proof.Machine
end

section
/-!
PROOFS. CLS (44_display.md R81). Its row is told by the whole word (30_encoding.md R43), and its meaning is one write of the
framebuffer, which reaches pixels alone.
-/
namespace Sys2Proof

/-- The exact row of CLS wins over SYS, and STRICT_5_9 has no part in family 0. -/
theorem decode_cls (strict : Bool) : decode strict 0x00E0#16 = .ok .cls := by
  have hop : fieldOp 0x00E0#16 = 0x0#4 := by decide
  simp only [decode, hop, decodeFamily0, if_true]

end Sys2Proof

namespace Sys2Proof.Machine

/-- The mask FFFF keeps the whole word, so its row holds the one word of the pattern. -/
theorem decodes_cls : Decodes 0xFFFF 0x00E0 (fun _ => .cls) := by
  intro strict ins hword
  have hins : ins = 0x00E0#16 := BitVec.and_allOnes.symm.trans hword
  rw [hins, decode_cls]

theorem exec_cls (s : State) : exec .cls s = .next (s.setFb Framebuffer.clear) := rfl

@[simp] theorem State.setFb_pixel (s : State) (f : Framebuffer) (px py : Nat) :
    (s.setFb f).pixel px py = f.pixel px py := rfl

theorem keeps_setFb (s : State) (f : Framebuffer) :
    KeepsAllBut (fun c => ∃ px py, c = .pixel px py) s (s.setFb f) := by
  intro c hc
  cases c with
  | pixel px py => exact absurd ⟨px, py, rfl⟩ hc
  | _ => rfl

/-- Settles O36: 00E0 alone is CLS, and CLS is one write of the clear framebuffer. -/
theorem clearScreenClearsEveryPixel : Obligations.ClearScreenClearsEveryPixel := by
  refine ⟨decodes_cls, fun s => ⟨s.setFb Framebuffer.clear, exec_cls s, fun px py => ?clear, keeps_setFb s _⟩⟩
  case clear => rw [State.setFb_pixel, Framebuffer.pixel_clear]

end Sys2Proof.Machine
end

section
/-!
PROOFS. LD Vx, DT (45_timers_keypad.md R85). The rows of family F have the mask F0FF, which keeps the family nibble and the
byte NN (30_encoding.md R43); the row of NN = 07 makes one write of VX and only reads DT.
-/
namespace Sys2Proof

theorem fieldOp_of_maskedByte {ins pattern : Word} (h : ins &&& 0xF0FF#16 = pattern) :
    fieldOp ins = fieldOp pattern := slice_of_masked h (by decide)

theorem fieldNN_of_maskedByte {ins pattern : Word} (h : ins &&& 0xF0FF#16 = pattern) :
    fieldNN ins = fieldNN pattern := slice_of_masked h (by decide)

/-- Family F is the last arm of R43, reached because its nibble is none of the other fifteen. -/
theorem decode_familyF {ins : Word} (strict : Bool) (hop : fieldOp ins = 0xF#4) :
    decode strict ins = decodeFamilyF ins := by
  rw [decode, hop]
  rfl

end Sys2Proof

namespace Sys2Proof.Machine

/-- A row of family F is decoded by its byte NN alone, the same for every word of the row. -/
theorem decodes_familyF {pattern : Word} {f : Word → Instr} (hop : fieldOp pattern = 0xF#4)
    (hrow : ∀ ins, fieldNN ins = fieldNN pattern → decodeFamilyF ins = .ok (f ins)) : Decodes 0xF0FF pattern f := by
  intro strict ins hword
  have hopF : fieldOp ins = 0xF#4 := (fieldOp_of_maskedByte hword).trans hop
  rw [decode_familyF strict hopF]
  exact hrow ins (fieldNN_of_maskedByte hword)

theorem decodes_ldVxDt : Decodes 0xF0FF 0xF007 (fun ins => .ldVxDt (fieldX ins)) :=
  decodes_familyF rfl fun ins (hnn : fieldNN ins = 0x07#8) => by simp only [decodeFamilyF, hnn]

theorem exec_ldVxDt (x : Reg) (s : State) : exec (.ldVxDt x) s = .next (s.setV x s.dt) := rfl

/-- Settles O41: the row F007 is LD Vx, DT, and it is one write of VX with the value of DT. -/
theorem readDelayTimer : Obligations.ReadDelayTimer :=
  ⟨decodes_ldVxDt, fun x s => ⟨s.setV x s.dt, exec_ldVxDt x s, s.getV_setV_same x s.dt, keeps_setV s x s.dt⟩⟩

end Sys2Proof.Machine
end

section
/-!
PROOFS. The rows of the opcode map (30_encoding.md R43): which words each row's mask and match select, one decoding
lemma per row. A row is told by the family nibble alone (mask F000), by the family and N (F00F), by the family and NN
(F0FF), or by the whole word (FFFF).
-/
namespace Sys2Proof

theorem decode_family0 {ins : Word} (strict : Bool) (hop : fieldOp ins = 0x0#4) :
    decode strict ins = decodeFamily0 ins := by
  simp only [decode, hop]

theorem decode_call {ins : Word} (strict : Bool) (hop : fieldOp ins = 0x2#4) :
    decode strict ins = .ok (.call (fieldNNN ins)) := by
  simp only [decode, hop]

theorem decode_seByte {ins : Word} (strict : Bool) (hop : fieldOp ins = 0x3#4) :
    decode strict ins = .ok (.seByte (fieldX ins) (fieldNN ins)) := by
  simp only [decode, hop]

theorem decode_sneByte {ins : Word} (strict : Bool) (hop : fieldOp ins = 0x4#4) :
    decode strict ins = .ok (.sneByte (fieldX ins) (fieldNN ins)) := by
  simp only [decode, hop]

theorem decode_family5 {ins : Word} (strict : Bool) (hop : fieldOp ins = 0x5#4) :
    decode strict ins = decodeFamily5 strict ins := by
  simp only [decode, hop]

theorem decode_family9 {ins : Word} (strict : Bool) (hop : fieldOp ins = 0x9#4) :
    decode strict ins = decodeFamily9 strict ins := by
  simp only [decode, hop]

theorem decode_jpV0 {ins : Word} (strict : Bool) (hop : fieldOp ins = 0xB#4) :
    decode strict ins = .ok (.jpV0 (fieldNNN ins)) := by
  simp only [decode, hop]

theorem decode_rnd {ins : Word} (strict : Bool) (hop : fieldOp ins = 0xC#4) :
    decode strict ins = .ok (.rnd (fieldX ins) (fieldNN ins)) := by
  simp only [decode, hop]

theorem decode_drw {ins : Word} (strict : Bool) (hop : fieldOp ins = 0xD#4) :
    decode strict ins = .ok (.drw (fieldX ins) (fieldY ins) (fieldN ins)) := by
  simp only [decode, hop]

theorem decode_familyE {ins : Word} (strict : Bool) (hop : fieldOp ins = 0xE#4) :
    decode strict ins = decodeFamilyE ins := by
  simp only [decode, hop]

theorem decodeFamily5_zero {ins : Word} (strict : Bool) (hn : fieldN ins = 0x0#4) :
    decodeFamily5 strict ins = .ok (.seReg (fieldX ins) (fieldY ins)) := by
  simp [decodeFamily5, hn]

theorem decodeFamily5_loose (ins : Word) :
    decodeFamily5 false ins = .ok (.seReg (fieldX ins) (fieldY ins)) := by
  simp [decodeFamily5]

theorem decodeFamily9_zero {ins : Word} (strict : Bool) (hn : fieldN ins = 0x0#4) :
    decodeFamily9 strict ins = .ok (.sneReg (fieldX ins) (fieldY ins)) := by
  simp [decodeFamily9, hn]

theorem decodeFamily9_loose (ins : Word) :
    decodeFamily9 false ins = .ok (.sneReg (fieldX ins) (fieldY ins)) := by
  simp [decodeFamily9]

theorem decode_ret (strict : Bool) : decode strict 0x00EE#16 = .ok .ret := by
  rw [decode_family0 strict (by decide), decodeFamily0, if_neg (by decide), if_pos rfl]

/-- Family 0 is SYS once the two exact rows are out (R43). -/
theorem decode_sys {ins : Word} (strict : Bool) (hop : fieldOp ins = 0x0#4) (hcls : ins ≠ 0x00E0#16)
    (hret : ins ≠ 0x00EE#16) : decode strict ins = .ok (.sys (fieldNNN ins)) := by
  rw [decode_family0 strict hop, decodeFamily0, if_neg hcls, if_neg hret]

end Sys2Proof

namespace Sys2Proof.Machine

/-- A row told by its family nibble alone. -/
theorem decodes_family {pattern : Word} {f : Word → Instr}
    (hrow : ∀ strict ins, fieldOp ins = fieldOp pattern → decode strict ins = .ok (f ins)) :
    Decodes 0xF000 pattern f := fun strict ins hword => hrow strict ins (fieldOp_of_masked hword)

/-- A row of family E is decoded by its byte NN alone, the same for every word of the row. -/
theorem decodes_familyE {pattern : Word} {f : Word → Instr} (hop : fieldOp pattern = 0xE#4)
    (hrow : ∀ ins, fieldNN ins = fieldNN pattern → decodeFamilyE ins = .ok (f ins)) : Decodes 0xF0FF pattern f := by
  intro strict ins hword
  have hopE : fieldOp ins = 0xE#4 := (fieldOp_of_maskedByte hword).trans hop
  rw [decode_familyE strict hopE]
  exact hrow ins (fieldNN_of_maskedByte hword)

theorem decodes_ret : Decodes 0xFFFF 0x00EE (fun _ => .ret) := by
  intro strict ins hword
  have hins : ins = 0x00EE#16 := BitVec.and_allOnes.symm.trans hword
  rw [hins, decode_ret]

theorem decodes_call : Decodes 0xF000 0x2000 (fun ins => .call (fieldNNN ins)) :=
  decodes_family fun strict _ hop => decode_call strict hop

theorem decodes_seByte : Decodes 0xF000 0x3000 (fun ins => .seByte (fieldX ins) (fieldNN ins)) :=
  decodes_family fun strict _ hop => decode_seByte strict hop

theorem decodes_sneByte : Decodes 0xF000 0x4000 (fun ins => .sneByte (fieldX ins) (fieldNN ins)) :=
  decodes_family fun strict _ hop => decode_sneByte strict hop

theorem decodes_seReg : Decodes 0xF00F 0x5000 (fun ins => .seReg (fieldX ins) (fieldY ins)) := by
  intro strict ins hword
  rw [decode_family5 strict (fieldOp_of_maskedNibble hword)]
  exact decodeFamily5_zero strict (fieldN_of_maskedNibble hword)

theorem decodes_sneReg : Decodes 0xF00F 0x9000 (fun ins => .sneReg (fieldX ins) (fieldY ins)) := by
  intro strict ins hword
  rw [decode_family9 strict (fieldOp_of_maskedNibble hword)]
  exact decodeFamily9_zero strict (fieldN_of_maskedNibble hword)

theorem decodes_addReg : Decodes 0xF00F 0x8004 (fun ins => .addReg (fieldX ins) (fieldY ins)) :=
  decodes_family8 rfl fun ins (hn : fieldN ins = 0x4#4) => by simp only [decodeFamily8, hn]

theorem decodes_sub : Decodes 0xF00F 0x8005 (fun ins => .sub (fieldX ins) (fieldY ins)) :=
  decodes_family8 rfl fun ins (hn : fieldN ins = 0x5#4) => by simp only [decodeFamily8, hn]

theorem decodes_shr : Decodes 0xF00F 0x8006 (fun ins => .shr (fieldX ins) (fieldY ins)) :=
  decodes_family8 rfl fun ins (hn : fieldN ins = 0x6#4) => by simp only [decodeFamily8, hn]

theorem decodes_subn : Decodes 0xF00F 0x8007 (fun ins => .subn (fieldX ins) (fieldY ins)) :=
  decodes_family8 rfl fun ins (hn : fieldN ins = 0x7#4) => by simp only [decodeFamily8, hn]

theorem decodes_shl : Decodes 0xF00F 0x800E (fun ins => .shl (fieldX ins) (fieldY ins)) :=
  decodes_family8 rfl fun ins (hn : fieldN ins = 0xE#4) => by simp only [decodeFamily8, hn]

theorem decodes_jpV0 : Decodes 0xF000 0xB000 (fun ins => .jpV0 (fieldNNN ins)) :=
  decodes_family fun strict _ hop => decode_jpV0 strict hop

theorem decodes_rnd : Decodes 0xF000 0xC000 (fun ins => .rnd (fieldX ins) (fieldNN ins)) :=
  decodes_family fun strict _ hop => decode_rnd strict hop

theorem decodes_drw : Decodes 0xF000 0xD000 (fun ins => .drw (fieldX ins) (fieldY ins) (fieldN ins)) :=
  decodes_family fun strict _ hop => decode_drw strict hop

theorem decodes_skp : Decodes 0xF0FF 0xE09E (fun ins => .skp (fieldX ins)) :=
  decodes_familyE rfl fun ins (hnn : fieldNN ins = 0x9E#8) => by simp only [decodeFamilyE, hnn]

theorem decodes_sknp : Decodes 0xF0FF 0xE0A1 (fun ins => .sknp (fieldX ins)) :=
  decodes_familyE rfl fun ins (hnn : fieldNN ins = 0xA1#8) => by simp only [decodeFamilyE, hnn]

theorem decodes_ldVxK : Decodes 0xF0FF 0xF00A (fun ins => .ldVxK (fieldX ins)) :=
  decodes_familyF rfl fun ins (hnn : fieldNN ins = 0x0A#8) => by simp only [decodeFamilyF, hnn]

theorem decodes_ldDtVx : Decodes 0xF0FF 0xF015 (fun ins => .ldDtVx (fieldX ins)) :=
  decodes_familyF rfl fun ins (hnn : fieldNN ins = 0x15#8) => by simp only [decodeFamilyF, hnn]

theorem decodes_ldStVx : Decodes 0xF0FF 0xF018 (fun ins => .ldStVx (fieldX ins)) :=
  decodes_familyF rfl fun ins (hnn : fieldNN ins = 0x18#8) => by simp only [decodeFamilyF, hnn]

theorem decodes_addI : Decodes 0xF0FF 0xF01E (fun ins => .addI (fieldX ins)) :=
  decodes_familyF rfl fun ins (hnn : fieldNN ins = 0x1E#8) => by simp only [decodeFamilyF, hnn]

theorem decodes_ldF : Decodes 0xF0FF 0xF029 (fun ins => .ldF (fieldX ins)) :=
  decodes_familyF rfl fun ins (hnn : fieldNN ins = 0x29#8) => by simp only [decodeFamilyF, hnn]

theorem decodes_ldB : Decodes 0xF0FF 0xF033 (fun ins => .ldB (fieldX ins)) :=
  decodes_familyF rfl fun ins (hnn : fieldNN ins = 0x33#8) => by simp only [decodeFamilyF, hnn]

theorem decodes_ldMemVx : Decodes 0xF0FF 0xF055 (fun ins => .ldMemVx (fieldX ins)) :=
  decodes_familyF rfl fun ins (hnn : fieldNN ins = 0x55#8) => by simp only [decodeFamilyF, hnn]

theorem decodes_ldVxMem : Decodes 0xF0FF 0xF065 (fun ins => .ldVxMem (fieldX ins)) :=
  decodes_familyF rfl fun ins (hnn : fieldNN ins = 0x65#8) => by simp only [decodeFamilyF, hnn]

end Sys2Proof.Machine
end

section
/-!
PROOFS. The two round trips of the encoding, and the opcode map (30_encoding.md R40, R43). A word of a row decodes to
that row's instruction with the word's own fields (`Instr.withFieldsOf`), and a word is put together again from its
fields.
-/
namespace Sys2Proof
open Sys2Proof.Machine

/-- The instruction of the same row that carries the fields of the word. -/
def Instr.withFieldsOf (ins : Word) : Instr → Instr
  | .sys _ => .sys (fieldNNN ins)
  | .cls => .cls
  | .ret => .ret
  | .jp _ => .jp (fieldNNN ins)
  | .call _ => .call (fieldNNN ins)
  | .seByte _ _ => .seByte (fieldX ins) (fieldNN ins)
  | .sneByte _ _ => .sneByte (fieldX ins) (fieldNN ins)
  | .seReg _ _ => .seReg (fieldX ins) (fieldY ins)
  | .ldByte _ _ => .ldByte (fieldX ins) (fieldNN ins)
  | .addByte _ _ => .addByte (fieldX ins) (fieldNN ins)
  | .ldReg _ _ => .ldReg (fieldX ins) (fieldY ins)
  | .orReg _ _ => .orReg (fieldX ins) (fieldY ins)
  | .andReg _ _ => .andReg (fieldX ins) (fieldY ins)
  | .xorReg _ _ => .xorReg (fieldX ins) (fieldY ins)
  | .addReg _ _ => .addReg (fieldX ins) (fieldY ins)
  | .sub _ _ => .sub (fieldX ins) (fieldY ins)
  | .shr _ _ => .shr (fieldX ins) (fieldY ins)
  | .subn _ _ => .subn (fieldX ins) (fieldY ins)
  | .shl _ _ => .shl (fieldX ins) (fieldY ins)
  | .sneReg _ _ => .sneReg (fieldX ins) (fieldY ins)
  | .ldI _ => .ldI (fieldNNN ins)
  | .jpV0 _ => .jpV0 (fieldNNN ins)
  | .rnd _ _ => .rnd (fieldX ins) (fieldNN ins)
  | .drw _ _ _ => .drw (fieldX ins) (fieldY ins) (fieldN ins)
  | .skp _ => .skp (fieldX ins)
  | .sknp _ => .sknp (fieldX ins)
  | .ldVxDt _ => .ldVxDt (fieldX ins)
  | .ldVxK _ => .ldVxK (fieldX ins)
  | .ldDtVx _ => .ldDtVx (fieldX ins)
  | .ldStVx _ => .ldStVx (fieldX ins)
  | .addI _ => .addI (fieldX ins)
  | .ldF _ => .ldF (fieldX ins)
  | .ldB _ => .ldB (fieldX ins)
  | .ldMemVx _ => .ldMemVx (fieldX ins)
  | .ldVxMem _ => .ldVxMem (fieldX ins)

/-- The encoder puts each operand where the fields are read. -/
theorem Instr.withFieldsOf_encode (i : Instr) : i.withFieldsOf (encode i) = i := by
  cases i <;> simp [Instr.withFieldsOf, encode]

theorem Instr.mnemonic_withFieldsOf (i : Instr) (ins : Word) : (i.withFieldsOf ins).mnemonic = i.mnemonic := by
  cases i <;> rfl

/-- The word of every instruction is of its row. -/
theorem encode_row (i : Instr) : encode i &&& i.rowMaskMatch.1 = i.rowMaskMatch.2 := by
  cases i with
  | sys nnn => exact Laws.EncodesRow.sys nnn
  | cls => exact Laws.EncodesRow.cls
  | ret => exact Laws.EncodesRow.ret
  | jp nnn => exact Laws.EncodesRow.jp nnn
  | call nnn => exact Laws.EncodesRow.call nnn
  | seByte x nn => exact Laws.EncodesRow.seByte x nn
  | sneByte x nn => exact Laws.EncodesRow.sneByte x nn
  | seReg x y => exact Laws.EncodesRow.seReg x y
  | ldByte x nn => exact Laws.EncodesRow.ldByte x nn
  | addByte x nn => exact Laws.EncodesRow.addByte x nn
  | ldReg x y => exact Laws.EncodesRow.ldReg x y
  | orReg x y => exact Laws.EncodesRow.orReg x y
  | andReg x y => exact Laws.EncodesRow.andReg x y
  | xorReg x y => exact Laws.EncodesRow.xorReg x y
  | addReg x y => exact Laws.EncodesRow.addReg x y
  | sub x y => exact Laws.EncodesRow.sub x y
  | shr x y => exact Laws.EncodesRow.shr x y
  | subn x y => exact Laws.EncodesRow.subn x y
  | shl x y => exact Laws.EncodesRow.shl x y
  | sneReg x y => exact Laws.EncodesRow.sneReg x y
  | ldI nnn => exact Laws.EncodesRow.ldI nnn
  | jpV0 nnn => exact Laws.EncodesRow.jpV0 nnn
  | rnd x nn => exact Laws.EncodesRow.rnd x nn
  | drw x y n => exact Laws.EncodesRow.drw x y n
  | skp x => exact Laws.EncodesRow.skp x
  | sknp x => exact Laws.EncodesRow.sknp x
  | ldVxDt x => exact Laws.EncodesRow.ldVxDt x
  | ldVxK x => exact Laws.EncodesRow.ldVxK x
  | ldDtVx x => exact Laws.EncodesRow.ldDtVx x
  | ldStVx x => exact Laws.EncodesRow.ldStVx x
  | addI x => exact Laws.EncodesRow.addI x
  | ldF x => exact Laws.EncodesRow.ldF x
  | ldB x => exact Laws.EncodesRow.ldB x
  | ldMemVx x => exact Laws.EncodesRow.ldMemVx x
  | ldVxMem x => exact Laws.EncodesRow.ldVxMem x

/-- Every row but SYS decodes by its mask and match alone; SYS yields to the exact rows of family 0. -/
theorem decode_of_row {strict : Bool} {i : Instr} {ins : Word} (hrow : ins &&& i.rowMaskMatch.1 = i.rowMaskMatch.2)
    (hsys : i.mnemonic = "SYS" → ins ≠ 0x00E0#16 ∧ ins ≠ 0x00EE#16) :
    decode strict ins = .ok (i.withFieldsOf ins) := by
  cases i with
  | sys nnn =>
    have hop : fieldOp ins = fieldOp 0x0000#16 := fieldOp_of_masked hrow
    exact decode_sys strict hop (hsys rfl).1 (hsys rfl).2
  | cls => exact decodes_cls strict ins hrow
  | ret => exact decodes_ret strict ins hrow
  | jp nnn => exact decodes_jp strict ins hrow
  | call nnn => exact decodes_call strict ins hrow
  | seByte x nn => exact decodes_seByte strict ins hrow
  | sneByte x nn => exact decodes_sneByte strict ins hrow
  | seReg x y => exact decodes_seReg strict ins hrow
  | ldByte x nn => exact decodes_ldByte strict ins hrow
  | addByte x nn => exact decodes_addByte strict ins hrow
  | ldReg x y => exact decodes_ldReg strict ins hrow
  | orReg x y => exact decodes_orReg strict ins hrow
  | andReg x y => exact decodes_andReg strict ins hrow
  | xorReg x y => exact decodes_xorReg strict ins hrow
  | addReg x y => exact decodes_addReg strict ins hrow
  | sub x y => exact decodes_sub strict ins hrow
  | shr x y => exact decodes_shr strict ins hrow
  | subn x y => exact decodes_subn strict ins hrow
  | shl x y => exact decodes_shl strict ins hrow
  | sneReg x y => exact decodes_sneReg strict ins hrow
  | ldI nnn => exact decodes_ldI strict ins hrow
  | jpV0 nnn => exact decodes_jpV0 strict ins hrow
  | rnd x nn => exact decodes_rnd strict ins hrow
  | drw x y n => exact decodes_drw strict ins hrow
  | skp x => exact decodes_skp strict ins hrow
  | sknp x => exact decodes_sknp strict ins hrow
  | ldVxDt x => exact decodes_ldVxDt strict ins hrow
  | ldVxK x => exact decodes_ldVxK strict ins hrow
  | ldDtVx x => exact decodes_ldDtVx strict ins hrow
  | ldStVx x => exact decodes_ldStVx strict ins hrow
  | addI x => exact decodes_addI strict ins hrow
  | ldF x => exact decodes_ldF strict ins hrow
  | ldB x => exact decodes_ldB strict ins hrow
  | ldMemVx x => exact decodes_ldMemVx strict ins hrow
  | ldVxMem x => exact decodes_ldVxMem strict ins hrow

/-- The check of `Instr.wf` keeps the word of a SYS off the words of CLS and RET. -/
theorem encode_ne_exact_rows {i : Instr} (hwf : i.wf = true) (hsys : i.mnemonic = "SYS") :
    encode i ≠ 0x00E0#16 ∧ encode i ≠ 0x00EE#16 := by
  cases i with
  | sys nnn =>
    obtain ⟨hcls, hret⟩ : nnn ≠ 0x0E0#12 ∧ nnn ≠ 0x0EE#12 := by simpa [Instr.wf, sysFieldOk] using hwf
    have hnnn : fieldNNN (encode (.sys nnn)) = nnn := fieldNNN_wordNNN 0x0#4 nnn
    exact ⟨fun h => hcls (hnnn.symm.trans (congrArg fieldNNN h)), fun h => hret (hnnn.symm.trans (congrArg fieldNNN h))⟩
  | _ => simp [Instr.mnemonic] at hsys

theorem decode_encode (strict : Bool) {i : Instr} (hwf : i.wf = true) : decode strict (encode i) = .ok i := by
  rw [decode_of_row (encode_row i) (encode_ne_exact_rows hwf), Instr.withFieldsOf_encode]

theorem decodeBytes_encodeBytes (strict : Bool) {i : Instr} (hwf : i.wf = true) (rest : List Byte) :
    decodeBytes strict (encodeBytes i ++ rest) = .ok (i, rest) := by
  simp [encodeBytes, decodeBytes, decode_encode strict hwf]

/-- Settles O3: the word of an instruction is of its row, and the row decodes to the operands the encoder put in. -/
theorem decodeOfEncodeIsTheInstruction : Obligations.DecodeOfEncodeIsTheInstruction :=
  fun strict _ hwf => ⟨decode_encode strict hwf, decodeBytes_encodeBytes strict hwf⟩

/-! ### A word is put together again from its fields -/

theorem wordNNN_fields {ins : Word} {op : BitVec 4} (hop : fieldOp ins = op) : wordNNN op (fieldNNN ins) = ins := by
  apply BitVec.eq_of_toNat_eq
  rw [wordNNN_toNat, ← hop, toNat_fieldOp, toNat_fieldNNN]
  omega

theorem wordXNN_fields {ins : Word} {op : BitVec 4} {nn : Byte} (hop : fieldOp ins = op) (hnn : fieldNN ins = nn) :
    wordXNN op (fieldX ins) nn = ins := by
  apply BitVec.eq_of_toNat_eq
  rw [wordXNN_toNat, ← hop, ← hnn, toNat_fieldOp, toNat_fieldX, toNat_fieldNN]
  omega

theorem wordXYN_fields {ins : Word} {op n : BitVec 4} (hop : fieldOp ins = op) (hn : fieldN ins = n) :
    wordXYN op (fieldX ins) (fieldY ins) n = ins := by
  apply BitVec.eq_of_toNat_eq
  rw [wordXYN_toNat, ← hop, ← hn, toNat_fieldOp, toNat_fieldX, toNat_fieldY, toNat_fieldN]
  omega

theorem encode_of_decodeFamily0 {ins : Word} {i : Instr} (hop : fieldOp ins = 0x0#4)
    (h : decodeFamily0 ins = .ok i) : encode i = ins ∧ i.wf = true := by
  unfold decodeFamily0 at h
  split at h
  case isTrue hcls => cases h; exact ⟨hcls.symm, rfl⟩
  split at h
  case isTrue hret => cases h; exact ⟨hret.symm, rfl⟩
  case isFalse hcls hret =>
    cases h
    have hword : wordNNN 0x0#4 (fieldNNN ins) = ins := wordNNN_fields hop
    refine ⟨hword, ?_⟩
    simp only [Instr.wf, sysFieldOk, Bool.and_eq_true, bne_iff_ne]
    exact ⟨fun hn => hcls (by rw [← hword, hn]; rfl), fun hn => hret (by rw [← hword, hn]; rfl)⟩

theorem encode_of_decodeFamily5 {ins : Word} {i : Instr} (hop : fieldOp ins = 0x5#4)
    (h : decodeFamily5 true ins = .ok i) : encode i = ins ∧ i.wf = true := by
  by_cases hn : fieldN ins = 0x0#4
  · rw [decodeFamily5_zero true hn] at h; cases h; exact ⟨wordXYN_fields hop hn, rfl⟩
  · simp [decodeFamily5, hn] at h

theorem encode_of_decodeFamily9 {ins : Word} {i : Instr} (hop : fieldOp ins = 0x9#4)
    (h : decodeFamily9 true ins = .ok i) : encode i = ins ∧ i.wf = true := by
  by_cases hn : fieldN ins = 0x0#4
  · rw [decodeFamily9_zero true hn] at h; cases h; exact ⟨wordXYN_fields hop hn, rfl⟩
  · simp [decodeFamily9, hn] at h

/-- Every row of family 8 keeps X, Y and N. -/
theorem encode_of_decodeFamily8 {ins : Word} {i : Instr} (hop : fieldOp ins = 0x8#4)
    (h : decodeFamily8 ins = .ok i) : encode i = ins ∧ i.wf = true := by
  unfold decodeFamily8 at h
  split at h <;> cases h <;> exact ⟨wordXYN_fields hop ‹_›, rfl⟩

/-- Both rows of family E keep X and NN. -/
theorem encode_of_decodeFamilyE {ins : Word} {i : Instr} (hop : fieldOp ins = 0xE#4)
    (h : decodeFamilyE ins = .ok i) : encode i = ins ∧ i.wf = true := by
  unfold decodeFamilyE at h
  split at h <;> cases h <;> exact ⟨wordXNN_fields hop ‹_›, rfl⟩

/-- Every row of family F keeps X and NN. -/
theorem encode_of_decodeFamilyF {ins : Word} {i : Instr} (hop : fieldOp ins = 0xF#4)
    (h : decodeFamilyF ins = .ok i) : encode i = ins ∧ i.wf = true := by
  unfold decodeFamilyF at h
  split at h <;> cases h <;> exact ⟨wordXNN_fields hop ‹_›, rfl⟩

theorem nibble_cases (b : BitVec 4) :
    b = 0x0#4 ∨ b = 0x1#4 ∨ b = 0x2#4 ∨ b = 0x3#4 ∨ b = 0x4#4 ∨ b = 0x5#4 ∨ b = 0x6#4 ∨ b = 0x7#4 ∨
    b = 0x8#4 ∨ b = 0x9#4 ∨ b = 0xA#4 ∨ b = 0xB#4 ∨ b = 0xC#4 ∨ b = 0xD#4 ∨ b = 0xE#4 ∨ b = 0xF#4 := by
  revert b; decide

theorem encode_of_decode {ins : Word} {i : Instr} (h : decode true ins = .ok i) : encode i = ins ∧ i.wf = true := by
  rcases nibble_cases (fieldOp ins) with hop | hop | hop | hop | hop | hop | hop | hop | hop | hop | hop | hop | hop |
    hop | hop | hop
  · rw [decode_family0 true hop] at h; exact encode_of_decodeFamily0 hop h
  · rw [decode_jp true hop] at h; cases h; exact ⟨wordNNN_fields hop, rfl⟩
  · rw [decode_call true hop] at h; cases h; exact ⟨wordNNN_fields hop, rfl⟩
  · rw [decode_seByte true hop] at h; cases h; exact ⟨wordXNN_fields hop rfl, rfl⟩
  · rw [decode_sneByte true hop] at h; cases h; exact ⟨wordXNN_fields hop rfl, rfl⟩
  · rw [decode_family5 true hop] at h; exact encode_of_decodeFamily5 hop h
  · rw [decode_ldByte true hop] at h; cases h; exact ⟨wordXNN_fields hop rfl, rfl⟩
  · rw [decode_addByte true hop] at h; cases h; exact ⟨wordXNN_fields hop rfl, rfl⟩
  · rw [decode_family8 true hop] at h; exact encode_of_decodeFamily8 hop h
  · rw [decode_family9 true hop] at h; exact encode_of_decodeFamily9 hop h
  · rw [decode_ldI true hop] at h; cases h; exact ⟨wordNNN_fields hop, rfl⟩
  · rw [decode_jpV0 true hop] at h; cases h; exact ⟨wordNNN_fields hop, rfl⟩
  · rw [decode_rnd true hop] at h; cases h; exact ⟨wordXNN_fields hop rfl, rfl⟩
  · rw [decode_drw true hop] at h; cases h; exact ⟨wordXYN_fields hop rfl, rfl⟩
  · rw [decode_familyE true hop] at h; exact encode_of_decodeFamilyE hop h
  · rw [decode_familyF true hop] at h; exact encode_of_decodeFamilyF hop h

/-- Settles O4: in each of the sixteen families the decoded operands are the word's fields. -/
theorem encodeOfDecodeIsTheWord : Obligations.EncodeOfDecodeIsTheWord := fun _ _ => encode_of_decode

/-- Settles O6: a row decodes to itself, and a decoded instruction's own word is of its row. -/
theorem decodeFollowsTheOpcodeMap : Obligations.DecodeFollowsTheOpcodeMap := by
  refine ⟨fun i ins hrow => ?_, fun i ins h => ?_⟩
  · by_cases hexact : i.mnemonic = "SYS" ∧ (ins = 0x00E0#16 ∨ ins = 0x00EE#16)
    · exact .inl hexact
    · have hsys : i.mnemonic = "SYS" → ins ≠ 0x00E0#16 ∧ ins ≠ 0x00EE#16 := fun hs =>
        ⟨fun h => hexact ⟨hs, .inl h⟩, fun h => hexact ⟨hs, .inr h⟩⟩
      exact .inr ⟨i.withFieldsOf ins, decode_of_row hrow hsys, i.mnemonic_withFieldsOf ins⟩
  · obtain ⟨rfl, -⟩ := encode_of_decode h
    exact encode_row i

/-! ### The words that do not decode -/

/-- The test of families 5 and 9: a word with N other than 0 is reserved under STRICT_5_9 (R43). -/
theorem strict_test_error_iff (strict : Bool) (ins : Word) (i : Instr) (u : DecodeError) :
    (∃ e, (if fieldN ins = 0x0#4 || !strict then Except.ok i else .error u) = .error e) ↔
      ins.toNat % 16 ≠ 0 ∧ strict = true := by
  have hn : fieldN ins = 0x0#4 ↔ ins.toNat % 16 = 0 := by rw [← toNat_fieldN, BitVec.toNat_eq]; rfl
  by_cases h : ins.toNat % 16 = 0 <;> cases strict <;> simp [hn, h]

theorem decodeFamily5_error_iff (strict : Bool) (ins : Word) :
    (∃ e, decodeFamily5 strict ins = .error e) ↔ ins.toNat % 16 ≠ 0 ∧ strict = true :=
  strict_test_error_iff strict ins _ _

theorem decodeFamily9_error_iff (strict : Bool) (ins : Word) :
    (∃ e, decodeFamily9 strict ins = .error e) ↔ ins.toNat % 16 ≠ 0 ∧ strict = true :=
  strict_test_error_iff strict ins _ _

/-- Family 8 has nine rows, told by N. -/
theorem decodeFamily8_error_iff (ins : Word) :
    (∃ e, decodeFamily8 ins = .error e) ↔ 8 ≤ ins.toNat % 16 ∧ ins.toNat % 16 ≠ 0xE := by
  rw [← toNat_fieldN]
  unfold decodeFamily8
  rcases nibble_cases (fieldN ins) with h | h | h | h | h | h | h | h | h | h | h | h | h | h | h | h <;> simp [h]

theorem decodeFamily0_ok (ins : Word) : ∃ i, decodeFamily0 ins = .ok i := by
  unfold decodeFamily0
  split
  · exact ⟨_, rfl⟩
  · split <;> exact ⟨_, rfl⟩

/-- A byte is in a list of bytes exactly if its number is among their numbers. -/
theorem toNat_mem_iff (b : Byte) (bs : List Byte) : b.toNat ∈ bs.map BitVec.toNat ↔ b ∈ bs :=
  List.mem_map_of_injective fun _ _ => BitVec.eq_of_toNat_eq

theorem decodeFamilyE_error_iff (ins : Word) :
    (∃ e, decodeFamilyE ins = .error e) ↔ ins.toNat % 256 ∉ [0x9E, 0xA1] := by
  have hnum : ins.toNat % 256 ∈ [0x9E, 0xA1] ↔ fieldNN ins ∈ [0x9E#8, 0xA1#8] := by
    rw [← toNat_fieldNN]; exact toNat_mem_iff _ [0x9E#8, 0xA1#8]
  rw [hnum, decodeFamilyE]
  clear hnum
  split <;> simp_all

theorem decodeFamilyF_error_iff (ins : Word) :
    (∃ e, decodeFamilyF ins = .error e) ↔
      ins.toNat % 256 ∉ [0x07, 0x0A, 0x15, 0x18, 0x1E, 0x29, 0x33, 0x55, 0x65] := by
  have hnum : ins.toNat % 256 ∈ [0x07, 0x0A, 0x15, 0x18, 0x1E, 0x29, 0x33, 0x55, 0x65] ↔
      fieldNN ins ∈ [0x07#8, 0x0A#8, 0x15#8, 0x18#8, 0x1E#8, 0x29#8, 0x33#8, 0x55#8, 0x65#8] := by
    rw [← toNat_fieldNN]
    exact toNat_mem_iff _ [0x07#8, 0x0A#8, 0x15#8, 0x18#8, 0x1E#8, 0x29#8, 0x33#8, 0x55#8, 0x65#8]
  rw [hnum, decodeFamilyF]
  clear hnum
  split <;> simp_all

/-- Settles O5: five families have reserved words, told by N or NN; every word of the other eleven decodes. -/
theorem unknownWordsAreTheReservedOnes : Obligations.UnknownWordsAreTheReservedOnes := by
  intro strict ins
  rw [← toNat_fieldOp]
  rcases nibble_cases (fieldOp ins) with hop | hop | hop | hop | hop | hop | hop | hop | hop | hop | hop | hop | hop |
    hop | hop | hop
  · obtain ⟨i, hi⟩ := decodeFamily0_ok ins
    simp [decode_family0 strict hop, hi, hop]
  · simp [decode_jp strict hop, hop]
  · simp [decode_call strict hop, hop]
  · simp [decode_seByte strict hop, hop]
  · simp [decode_sneByte strict hop, hop]
  · rw [decode_family5 strict hop, decodeFamily5_error_iff, hop]; simp
  · simp [decode_ldByte strict hop, hop]
  · simp [decode_addByte strict hop, hop]
  · rw [decode_family8 strict hop, decodeFamily8_error_iff, hop]; simp
  · rw [decode_family9 strict hop, decodeFamily9_error_iff, hop]; simp
  · simp [decode_ldI strict hop, hop]
  · simp [decode_jpV0 strict hop, hop]
  · simp [decode_rnd strict hop, hop]
  · simp [decode_drw strict hop, hop]
  · rw [decode_familyE strict hop, decodeFamilyE_error_iff, hop]; simp
  · rw [decode_familyF strict hop, decodeFamilyF_error_iff, hop]; simp

/-- Settles O1: each sample word is decoded by evaluation. -/
theorem sampleWordsDecode : Obligations.SampleWordsDecode := by
  unfold Obligations.SampleWordsDecode
  decide

end Sys2Proof
end

section
/-!
PROOFS. What an instruction can do, said once (30_encoding.md R44): `Effect s i t` names the update by which `i` takes `s`
to `t`, and `exec_cases` says that every instruction has such an effect or ends in the model fault of R94. The
invariants and the frames of the whole machine are cases over the effects.
-/
namespace Sys2Proof.Machine

theorem exec_sys (nnn : Addr12) (s : State) : exec (.sys nnn) s = execSys nnn s := rfl
theorem exec_ret (s : State) : exec .ret s = execRet s := rfl
theorem exec_call (nnn : Addr12) (s : State) : exec (.call nnn) s = execCall nnn s := rfl

theorem exec_seByte (x : Reg) (nn : Byte) (s : State) :
    exec (.seByte x nn) s = .next (s.skipIf (s.getV x == nn)) := rfl

theorem exec_sneByte (x : Reg) (nn : Byte) (s : State) :
    exec (.sneByte x nn) s = .next (s.skipIf (s.getV x != nn)) := rfl

theorem exec_seReg (x y : Reg) (s : State) :
    exec (.seReg x y) s = .next (s.skipIf (s.getV x == s.getV y)) := rfl

theorem exec_sneReg (x y : Reg) (s : State) :
    exec (.sneReg x y) s = .next (s.skipIf (s.getV x != s.getV y)) := rfl

theorem exec_addReg (x y : Reg) (s : State) : exec (.addReg x y) s =
    .next (s.setResultFlag x (s.getV x + s.getV y) (carryOut (s.getV x) (s.getV y))) := rfl

theorem exec_sub (x y : Reg) (s : State) : exec (.sub x y) s =
    .next (s.setResultFlag x (s.getV x - s.getV y) (notBorrow (s.getV x) (s.getV y))) := rfl

theorem exec_shr (x y : Reg) (s : State) : exec (.shr x y) s =
    .next (s.setResultFlag x (s.getV x >>> 1) (shiftedOutRight (s.getV x))) := rfl

theorem exec_subn (x y : Reg) (s : State) : exec (.subn x y) s =
    .next (s.setResultFlag x (s.getV y - s.getV x) (notBorrow (s.getV y) (s.getV x))) := rfl

theorem exec_shl (x y : Reg) (s : State) : exec (.shl x y) s =
    .next (s.setResultFlag x (s.getV x <<< 1) (shiftedOutLeft (s.getV x))) := rfl

theorem exec_jpV0 (nnn : Addr12) (s : State) :
    exec (.jpV0 nnn) s = .next (s.setPc (zextAddr nnn + zextByte (s.getV reg0))) := rfl

theorem exec_rnd (x : Reg) (nn : Byte) (s : State) :
    exec (.rnd x nn) s = .next (s.drawTaken.setV x (s.drawnByte &&& nn)) := rfl

theorem exec_drw (x y : Reg) (n : BitVec 4) (s : State) : exec (.drw x y n) s = execDrw x y n s := rfl

theorem exec_skp (x : Reg) (s : State) :
    exec (.skp x) s = .next (s.skipIf (s.keyDown (lowNibble (s.getV x)))) := rfl

theorem exec_sknp (x : Reg) (s : State) :
    exec (.sknp x) s = .next (s.skipIf (!s.keyDown (lowNibble (s.getV x)))) := rfl

/-- FX0A with no key pressed goes back to itself (45_timers_keypad.md R86). -/
theorem exec_ldVxK_none {s : State} (h : s.leastKey = none) (x : Reg) :
    exec (.ldVxK x) s = .next (s.setPc (s.pc - 2)) := by
  simp only [exec, execLdVxK, h]

/-- FX0A with keys pressed takes the least one (R86). -/
theorem exec_ldVxK_some {s : State} {k : Nat} (h : s.leastKey = some k) (x : Reg) :
    exec (.ldVxK x) s = .next (s.setV x (BitVec.ofNat 8 k)) := by
  simp only [exec, execLdVxK, h]

theorem exec_ldDtVx (x : Reg) (s : State) : exec (.ldDtVx x) s = .next (s.setDt (s.getV x)) := rfl

theorem exec_ldStVx (x : Reg) (s : State) : exec (.ldStVx x) s = .next (s.setSt (s.getV x)) := rfl

theorem exec_addI (x : Reg) (s : State) : exec (.addI x) s = .next (s.setI (s.i + zextByte (s.getV x))) := rfl

theorem exec_ldF (x : Reg) (s : State) :
    exec (.ldF x) s = .next (s.setI (glyphAddr s.cfg.fontBase (lowNibble (s.getV x)))) := rfl

theorem exec_ldB (x : Reg) (s : State) :
    exec (.ldB x) s = .next (s.memWriteList s.i.toNat (bcdDigits (s.getV x))) := rfl

theorem exec_ldMemVx (x : Reg) (s : State) :
    exec (.ldMemVx x) s = .next (s.memWriteList s.i.toNat (s.regList x)) := rfl

theorem exec_ldVxMem (x : Reg) (s : State) :
    exec (.ldVxMem x) s = .next (s.loadRegs s.i.toNat (x.toNat + 1)) := rfl

/-- SYS, by its policy (41_control_flow.md R52). -/
theorem execSys_cases (nnn : Addr12) (s : State) :
    (s.cfg.sysPolicy = .unknown ∧ execSys nnn s = raise .unknownInstruction (encode (.sys nnn)) s.insAddr s) ∨
    (s.cfg.sysPolicy = .nop ∧ execSys nnn s = .next s) := by
  cases h : s.cfg.sysPolicy with
  | unknown => exact .inl ⟨rfl, by simp only [execSys, h]⟩
  | nop => exact .inr ⟨rfl, by simp only [execSys, h]⟩

/-- By which update an instruction takes a state to the next one. Rows that share an update share a constructor, told
apart by their names in the opcode map. -/
inductive Effect (s : State) : Instr → State → Prop
  | sysNop (nnn : Addr12) : Effect s (.sys nnn) s
  | sysReport (nnn : Addr12) :
      Effect s (.sys nnn) (s.reported ⟨.unknownInstruction, encode (.sys nnn), s.insAddr⟩)
  | underflow : Effect s .ret ((s.setPc programStart).reported ⟨.stackUnderflow, encode .ret, s.insAddr⟩)
  | pop (w : Word) : Effect s .ret { s with sp := s.sp - 1, pc := w }
  | overflow (nnn : Addr12) : Effect s (.call nnn) (s.reported ⟨.stackOverflow, encode (.call nnn), s.insAddr⟩)
  | push (nnn : Addr12) (hroom : s.sp ≠ s.cfg.stackDepth) :
      Effect s (.call nnn) { s with stack := s.stack.set s.sp s.pc, sp := s.sp + 1, pc := zextAddr nnn }
  | setPc {i : Instr} (w : Word) (hi : i.mnemonic ∈ ["JP", "JP_V0", "LD_VX_K"]) : Effect s i (s.setPc w)
  | skipIf {i : Instr} (c : Bool) (hi : i.mnemonic ∈ ["SE_BYTE", "SNE_BYTE", "SE_REG", "SNE_REG", "SKP", "SKNP"]) :
      Effect s i (s.skipIf c)
  | setV {i : Instr} {x : Reg} (b : Byte) (hx : fieldX (encode i) = x)
      (hi : i.mnemonic ∈ ["LD_BYTE", "ADD_BYTE", "LD_REG", "OR", "AND", "XOR", "LD_VX_DT", "LD_VX_K"]) :
      Effect s i (s.setV x b)
  | setResultFlag {i : Instr} {x : Reg} (r : Byte) (c : Bool) (hx : fieldX (encode i) = x)
      (hi : i.mnemonic ∈ ["ADD_REG", "SUB", "SHR", "SUBN", "SHL"]) : Effect s i (s.setResultFlag x r c)
  | rnd (x : Reg) (nn b : Byte) : Effect s (.rnd x nn) (s.drawTaken.setV x b)
  | setI {i : Instr} (w : Word) (hi : i.mnemonic ∈ ["LD_I", "ADD_I", "LD_F"]) : Effect s i (s.setI w)
  | setDt (x : Reg) : Effect s (.ldDtVx x) (s.setDt (s.getV x))
  | setSt (x : Reg) : Effect s (.ldStVx x) (s.setSt (s.getV x))
  | cls : Effect s .cls (s.setFb Framebuffer.clear)
  | drw (x y : Reg) (n : BitVec 4) (f : Framebuffer) (b : Byte) : Effect s (.drw x y n) ((s.setFb f).setV regF b)
  | store {i : Instr} (bs : List Byte) (hi : i.mnemonic ∈ ["LD_B", "LD_MEM_VX"]) :
      Effect s i (s.memWriteList s.i.toNat bs)
  | load (x : Reg) : Effect s (.ldVxMem x) (s.loadRegs s.i.toNat (x.toNat + 1))

/-- Where SP and the stack do not fit each other, RET and CALL have no entry to read or write (60_exceptions.md R94). -/
def StackMisfit (s : State) : Instr → Prop
  | .ret => s.sp ≠ 0 ∧ s.stack[s.sp - 1]? = none
  | .call _ => s.sp ≠ s.cfg.stackDepth ∧ s.stack.length ≤ s.sp
  | _ => False

/-- Every instruction goes on with an effect, or faults where the stack does not fit. -/
theorem exec_cases (i : Instr) (s : State) :
    (∃ t, exec i s = .next t ∧ Effect s i t) ∨
    (StackMisfit s i ∧ ∃ r, exec i s = .fault (.outOfBoundsAccess r)) := by
  cases i with
  | sys nnn =>
    rw [exec_sys]
    obtain ⟨-, h⟩ | ⟨-, h⟩ := execSys_cases nnn s
    · exact .inl ⟨_, h.trans (raise_eq _ _ _ _), .sysReport nnn⟩
    · exact .inl ⟨_, h, .sysNop nnn⟩
  | ret =>
    rw [exec_ret]
    obtain ⟨-, h⟩ | ⟨-, w, -, h⟩ | ⟨hsp, hnone, h⟩ := execRet_cases s
    · exact .inl ⟨_, h.trans (raise_eq _ _ _ _), .underflow⟩
    · exact .inl ⟨_, h, .pop w⟩
    · exact .inr ⟨⟨hsp, hnone⟩, _, h⟩
  | call nnn =>
    rw [exec_call]
    obtain ⟨-, h⟩ | ⟨hroom, -, h⟩ | ⟨hroom, hlen, h⟩ := execCall_cases nnn s
    · exact .inl ⟨_, h.trans (raise_eq _ _ _ _), .overflow nnn⟩
    · exact .inl ⟨_, h, .push nnn hroom⟩
    · exact .inr ⟨⟨hroom, hlen⟩, _, h⟩
  | ldVxK x =>
    cases h : s.leastKey with
    | none => exact .inl ⟨_, exec_ldVxK_none h x, .setPc _ (by simp [Instr.mnemonic])⟩
    | some k => exact .inl ⟨_, exec_ldVxK_some h x, .setV _ (fieldX_wordXNN _ _ _) (by simp [Instr.mnemonic])⟩
  | cls => exact .inl ⟨_, exec_cls s, .cls⟩
  | jp nnn => exact .inl ⟨_, exec_jp nnn s, .setPc _ (by simp [Instr.mnemonic])⟩
  | seByte x nn => exact .inl ⟨_, exec_seByte x nn s, .skipIf _ (by simp [Instr.mnemonic])⟩
  | sneByte x nn => exact .inl ⟨_, exec_sneByte x nn s, .skipIf _ (by simp [Instr.mnemonic])⟩
  | seReg x y => exact .inl ⟨_, exec_seReg x y s, .skipIf _ (by simp [Instr.mnemonic])⟩
  | ldByte x nn => exact .inl ⟨_, exec_ldByte x nn s, .setV _ (fieldX_wordXNN _ _ _) (by simp [Instr.mnemonic])⟩
  | addByte x nn => exact .inl ⟨_, exec_addByte x nn s, .setV _ (fieldX_wordXNN _ _ _) (by simp [Instr.mnemonic])⟩
  | ldReg x y => exact .inl ⟨_, exec_ldReg x y s, .setV _ (fieldX_wordXYN _ _ _ _) (by simp [Instr.mnemonic])⟩
  | orReg x y => exact .inl ⟨_, exec_orReg x y s, .setV _ (fieldX_wordXYN _ _ _ _) (by simp [Instr.mnemonic])⟩
  | andReg x y => exact .inl ⟨_, exec_andReg x y s, .setV _ (fieldX_wordXYN _ _ _ _) (by simp [Instr.mnemonic])⟩
  | xorReg x y => exact .inl ⟨_, exec_xorReg x y s, .setV _ (fieldX_wordXYN _ _ _ _) (by simp [Instr.mnemonic])⟩
  | addReg x y =>
    exact .inl ⟨_, exec_addReg x y s, .setResultFlag _ _ (fieldX_wordXYN _ _ _ _) (by simp [Instr.mnemonic])⟩
  | sub x y => exact .inl ⟨_, exec_sub x y s, .setResultFlag _ _ (fieldX_wordXYN _ _ _ _) (by simp [Instr.mnemonic])⟩
  | shr x y => exact .inl ⟨_, exec_shr x y s, .setResultFlag _ _ (fieldX_wordXYN _ _ _ _) (by simp [Instr.mnemonic])⟩
  | subn x y => exact .inl ⟨_, exec_subn x y s, .setResultFlag _ _ (fieldX_wordXYN _ _ _ _) (by simp [Instr.mnemonic])⟩
  | shl x y => exact .inl ⟨_, exec_shl x y s, .setResultFlag _ _ (fieldX_wordXYN _ _ _ _) (by simp [Instr.mnemonic])⟩
  | sneReg x y => exact .inl ⟨_, exec_sneReg x y s, .skipIf _ (by simp [Instr.mnemonic])⟩
  | ldI nnn => exact .inl ⟨_, exec_ldI nnn s, .setI _ (by simp [Instr.mnemonic])⟩
  | jpV0 nnn => exact .inl ⟨_, exec_jpV0 nnn s, .setPc _ (by simp [Instr.mnemonic])⟩
  | rnd x nn => exact .inl ⟨_, exec_rnd x nn s, .rnd x nn _⟩
  | drw x y n => exact .inl ⟨_, exec_drw x y n s, .drw x y n _ _⟩
  | skp x => exact .inl ⟨_, exec_skp x s, .skipIf _ (by simp [Instr.mnemonic])⟩
  | sknp x => exact .inl ⟨_, exec_sknp x s, .skipIf _ (by simp [Instr.mnemonic])⟩
  | ldVxDt x => exact .inl ⟨_, exec_ldVxDt x s, .setV _ (fieldX_wordXNN _ _ _) (by simp [Instr.mnemonic])⟩
  | ldDtVx x => exact .inl ⟨_, exec_ldDtVx x s, .setDt x⟩
  | ldStVx x => exact .inl ⟨_, exec_ldStVx x s, .setSt x⟩
  | addI x => exact .inl ⟨_, exec_addI x s, .setI _ (by simp [Instr.mnemonic])⟩
  | ldF x => exact .inl ⟨_, exec_ldF x s, .setI _ (by simp [Instr.mnemonic])⟩
  | ldB x => exact .inl ⟨_, exec_ldB x s, .store _ (by simp [Instr.mnemonic])⟩
  | ldMemVx x => exact .inl ⟨_, exec_ldMemVx x s, .store _ (by simp [Instr.mnemonic])⟩
  | ldVxMem x => exact .inl ⟨_, exec_ldVxMem x s, .load x⟩

theorem effect_of_exec {i : Instr} {s t : State} (h : exec i s = .next t) : Effect s i t := by
  obtain ⟨u, hu, he⟩ | ⟨-, r, hr⟩ := exec_cases i s
  · cases hu.symm.trans h; exact he
  · cases hr.symm.trans h

/-- A fault is the model fault of a stack that does not fit. -/
theorem misfit_of_exec_fault {i : Instr} {s : State} {f : Fault} (h : exec i s = .fault f) : StackMisfit s i := by
  obtain ⟨u, hu, -⟩ | ⟨hmis, -⟩ := exec_cases i s
  · cases hu.symm.trans h
  · exact hmis

/-! ### What no instruction changes -/

variable {i : Instr} {s t : State}

theorem Effect.key (h : Effect s i t) : t.key = s.key := by cases h <;> simp
theorem Effect.cfg (h : Effect s i t) : t.cfg = s.cfg := by cases h <;> simp
theorem Effect.started (h : Effect s i t) : t.started = s.started := by cases h <;> simp
theorem Effect.inputs (h : Effect s i t) : t.inputs = s.inputs := by cases h <;> simp

/-! ### The writers of each element -/

theorem Effect.mem_writers (h : Effect s i t) (hne : t.mem ≠ s.mem) : i.mnemonic ∈ ["LD_B", "LD_MEM_VX"] := by
  cases h with
  | store bs hi => exact hi
  | _ => simp at hne

theorem Effect.fb_writers (h : Effect s i t) (hne : t.fb ≠ s.fb) : i.mnemonic ∈ ["CLS", "DRW"] := by
  cases h with
  | cls => simp [Instr.mnemonic]
  | drw x y n f b => simp [Instr.mnemonic]
  | _ => simp at hne

theorem Effect.stack_writers (h : Effect s i t) (hne : t.stack ≠ s.stack) : i.mnemonic = "CALL" := by
  cases h with
  | push nnn => rfl
  | _ => simp at hne

theorem Effect.sp_writers (h : Effect s i t) (hne : t.sp ≠ s.sp) : i.mnemonic ∈ ["CALL", "RET"] := by
  cases h with
  | push nnn => simp [Instr.mnemonic]
  | pop w => simp [Instr.mnemonic]
  | _ => simp at hne

theorem Effect.i_writers (h : Effect s i t) (hne : t.i ≠ s.i) : i.mnemonic ∈ ["LD_I", "ADD_I", "LD_F"] := by
  cases h with
  | setI w hi => exact hi
  | _ => simp at hne

theorem Effect.dt_writers (h : Effect s i t) (hne : t.dt ≠ s.dt) : i.mnemonic = "LD_DT_VX" := by
  cases h with
  | setDt x => rfl
  | _ => simp at hne

/-- ST is written by FX18 alone, with the value of its register. -/
theorem Effect.st_writers (h : Effect s i t) (hne : t.st ≠ s.st) : ∃ x, i = .ldStVx x ∧ t.st = s.getV x := by
  cases h with
  | setSt x => exact ⟨x, rfl, rfl⟩
  | _ => simp at hne

theorem Effect.pc_writers (h : Effect s i t) (hne : t.pc ≠ s.pc) :
    i.mnemonic ∈ ["RET", "JP", "CALL", "SE_BYTE", "SNE_BYTE", "SE_REG", "SNE_REG", "JP_V0", "SKP", "SKNP",
      "LD_VX_K"] := by
  cases h with
  | underflow => simp [Instr.mnemonic]
  | pop w => simp [Instr.mnemonic]
  | push nnn => simp [Instr.mnemonic]
  | setPc w hi => exact List.subset_def.1 (by simp) hi
  | skipIf c hi => exact List.subset_def.1 (by simp) hi
  | _ => simp at hne

/-- A V register is written through the X field, by FX65 up to its X, or as VF by a flag writer. -/
theorem Effect.v_writers {x : Reg} (h : Effect s i t) (hne : t.getV x ≠ s.getV x) :
    (x = fieldX (encode i) ∧ i.mnemonic ∈ ["LD_BYTE", "ADD_BYTE", "LD_REG", "OR", "AND", "XOR", "ADD_REG", "SUB", "SHR",
      "SUBN", "SHL", "RND", "LD_VX_DT", "LD_VX_K"]) ∨
    (x.toNat ≤ (fieldX (encode i)).toNat ∧ i.mnemonic = "LD_VX_MEM") ∨
    (x = 0xF#4 ∧ i.mnemonic ∈ ["ADD_REG", "SUB", "SHR", "SUBN", "SHL", "DRW"]) := by
  cases h with
  | @setV i y b hy hi =>
    have hxy : x = y := by by_contra hxy; exact hne (s.getV_setV_ne b hxy)
    exact .inl ⟨hxy.trans hy.symm, List.subset_def.1 (by simp) hi⟩
  | @setResultFlag i y r c hy hi =>
    by_cases hF : x = regF
    · exact .inr (.inr ⟨hF, List.subset_def.1 (by simp) hi⟩)
    · have hxy : x = y := by
        by_contra hxy
        rw [State.getV_setResultFlag, if_neg hF, if_neg hxy] at hne
        exact hne rfl
      exact .inl ⟨hxy.trans hy.symm, List.subset_def.1 (by simp) hi⟩
  | rnd y nn b =>
    have hxy : x = y := by by_contra hxy; exact hne (s.drawTaken.getV_setV_ne b hxy)
    exact .inl ⟨hxy.trans (fieldX_wordXNN 0xC#4 y nn).symm, by simp [Instr.mnemonic]⟩
  | drw y z n f b =>
    have hF : x = regF := by by_contra hF; exact hne ((s.setFb f).getV_setV_ne b hF)
    exact .inr (.inr ⟨hF, by simp [Instr.mnemonic]⟩)
  | load y =>
    have hle : x.toNat < y.toNat + 1 := by
      by_contra hle
      rw [State.getV_loadRegs s _ x _ (by omega), if_neg hle] at hne
      exact hne rfl
    exact .inr (.inl ⟨by simp [encode]; omega, rfl⟩)
  | pop w => exact absurd rfl hne
  | push nnn hroom => exact absurd rfl hne
  | _ => simp at hne

theorem Effect.vf_writers (h : Effect s i t) (hne : t.getV 0xF#4 ≠ s.getV 0xF#4) :
    i.mnemonic ∈ ["ADD_REG", "SUB", "SHR", "SUBN", "SHL", "DRW"] ∨
    (fieldX (encode i) = 0xF#4 ∧ i.mnemonic ∈ ["LD_BYTE", "ADD_BYTE", "LD_REG", "OR", "AND", "XOR", "RND", "LD_VX_DT",
      "LD_VX_K", "LD_VX_MEM"]) := by
  obtain ⟨hx, hi⟩ | ⟨hx, hi⟩ | ⟨-, hi⟩ := h.v_writers hne
  · have hsplit : i.mnemonic ∈ ["ADD_REG", "SUB", "SHR", "SUBN", "SHL", "DRW"] ++ ["LD_BYTE", "ADD_BYTE", "LD_REG", "OR",
        "AND", "XOR", "RND", "LD_VX_DT", "LD_VX_K", "LD_VX_MEM"] := List.subset_def.1 (by simp) hi
    exact (List.mem_append.1 hsplit).imp_right fun hi => ⟨hx.symm, hi⟩
  · have hmax : fieldX (encode i) = 0xF#4 := by
      have hlt := (fieldX (encode i)).isLt
      exact BitVec.eq_of_toNat_eq (Nat.le_antisymm (by simpa using Nat.le_of_lt_succ hlt) hx)
    exact .inr ⟨hmax, by simp [hi]⟩
  · exact .inl hi

/-- Settles O54: one lemma per element, each a case split over the effects. -/
theorem eachElementHasOnlyItsWriters : Obligations.EachElementHasOnlyItsWriters := by
  intro i s t h
  have he : Effect s i t := effect_of_exec h
  have hst : t.st ≠ s.st → i.mnemonic = "LD_ST_VX" := fun hne => by
    obtain ⟨x, rfl, -⟩ := he.st_writers hne
    rfl
  exact ⟨he.mem_writers, he.fb_writers, he.stack_writers, he.sp_writers, he.i_writers, he.dt_writers, hst, he.pc_writers,
    fun _ => he.v_writers, he.vf_writers, he.key, he.cfg, he.started, he.inputs⟩

end Sys2Proof.Machine
end

section
/-!
PROOFS. What a host command can do, said once (60_exceptions.md R104): `Performed s c t` names the update by which the
command `c` takes `s` to `t`, a STEP through the effect of its instruction or the report of an UNKNOWN word
(30_encoding.md R45). The invariant of the whole machine and what every step keeps are cases over it.
-/
namespace Sys2Proof.Machine

/-- By which update a command takes a state to the next one. -/
inductive Performed (s : State) : Command → State → Prop
  | reset : Performed s .reset (resetCommand s)
  | loadFont (g : Vector Byte 80) :
      Performed s (.loadFont g) ((s.memWriteList s.cfg.fontBase g.toList).respond .empty)
  | loadProgram (image : List Byte) :
      Performed s (.loadProgram image) ((s.memWriteList programStart.toNat image).respond .empty)
  | setKeys (keys : Vector Bool 16) : Performed s (.setKeys keys) (setKeys keys s)
  | tick : Performed s .tick (tick s)
  | observe {c : Command} (r : Response) (hc : c ∈ [.readFb, .readTimers, .takeSnapshot]) :
      Performed s c (s.respond r)
  | run (d : Option Byte) {i : Instr} {t : State} (hrun : s.halted = none)
      (hword : decode s.cfg.strict59 s.fetchWord = .ok i) (heffect : Effect (s.postFetch d) i t) :
      Performed s (.step d) t
  | unknown (d : Option Byte) (hrun : s.halted = none) :
      Performed s (.step d) ((s.postFetch d).reported ⟨.unknownInstruction, s.fetchWord, s.pc⟩)

/-! ### The loads, by case (70_reset_and_hazards.md R112, R113) -/

theorem command_loadFont {s : State} (g : Vector Byte 80) (h : s.started = false) :
    command (.loadFont g) s = .next ((s.memWriteList s.cfg.fontBase g.toList).respond .empty) := by
  simp [command, loadFont, h]

theorem command_loadFont_late {s : State} (g : Vector Byte 80) (h : s.started = true) :
    command (.loadFont g) s = .refused .loadAfterStep := by
  simp [command, loadFont, h]

theorem command_loadProgram {s : State} {image : List Byte} (h : s.started = false) (hlen : image.length ≤ 3584) :
    command (.loadProgram image) s = .next ((s.memWriteList programStart.toNat image).respond .empty) := by
  simp [command, loadProgram, h, maxImage, Nat.not_lt.2 hlen]

theorem command_loadProgram_large {s : State} {image : List Byte} (h : s.started = false) (hlen : 3584 < image.length) :
    command (.loadProgram image) s = .refused .imageTooLarge := by
  simp [command, loadProgram, h, maxImage, hlen]

theorem command_loadProgram_late {s : State} (image : List Byte) (h : s.started = true) :
    command (.loadProgram image) s = .refused .loadAfterStep := by
  simp [command, loadProgram, h]

/-! ### Every command and every step -/

theorem performed_of_stepCommand {d : Option Byte} {s t : State} (h : stepCommand d s = .next t) :
    Performed s (.step d) t := by
  obtain ⟨r, -, hr⟩ | ⟨hrun, i, hword, hexec⟩ | ⟨hrun, -, hraise⟩ := stepCommand_cases d s
  · cases hr.symm.trans h
  · exact .run d hrun hword (effect_of_exec (hexec.symm.trans h))
  · cases hraise.symm.trans h; exact .unknown d hrun

theorem performed_of_command {c : Command} {s t : State} (h : command c s = .next t) : Performed s c t := by
  cases c with
  | reset => cases h; exact .reset
  | loadFont g =>
    cases hs : s.started with
    | true => cases (command_loadFont_late g hs).symm.trans h
    | false => cases (command_loadFont g hs).symm.trans h; exact .loadFont g
  | loadProgram image =>
    cases hs : s.started with
    | true => cases (command_loadProgram_late image hs).symm.trans h
    | false =>
      by_cases hlen : image.length ≤ 3584
      · cases (command_loadProgram hs hlen).symm.trans h; exact .loadProgram image
      · cases (command_loadProgram_large hs (Nat.not_le.1 hlen)).symm.trans h
  | setKeys keys => cases h; exact .setKeys keys
  | step d => exact performed_of_stepCommand h
  | tick => cases h; exact .tick
  | readFb => cases h; exact .observe _ (by simp)
  | readTimers => cases h; exact .observe _ (by simp)
  | takeSnapshot => cases h; exact .observe _ (by simp)

theorem performed_of_step {s t : State} (h : step s = .next t) : Performed s.dequeue s.nextCommand t :=
  performed_of_command h

variable {s t : State} {c : Command} {i : Instr}

/-! ### The invariant -/

/-- What the invariant speaks of, kept by an update that leaves the parameters, the halted mark and the started bit. -/
theorem State.Inv.of_frame (hinv : s.Inv) (hcfg : t.cfg = s.cfg) (hhalted : t.halted = s.halted)
    (hstarted : t.started = s.started) (hmem : t.mem.wf = true) (hstack : t.stack.length = s.stack.length)
    (hsp : t.sp ≤ s.cfg.stackDepth) : t.Inv where
  cfg_wf := hcfg ▸ hinv.cfg_wf
  mem_wf := hmem
  stack_length := by rw [hstack, hcfg]; exact hinv.stack_length
  sp_le := by rw [hcfg]; exact hsp
  halted_started := by rw [hhalted, hstarted]; exact hinv.halted_started
  halted_policy := by rw [hhalted, hcfg]; exact hinv.halted_policy
  halted_kind := by rw [hhalted]; exact hinv.halted_kind

/-- An update outside the parameters, memory, the stack, SP, the halted mark and the started bit. -/
theorem State.Inv.of_same (hinv : s.Inv) (hcfg : t.cfg = s.cfg) (hhalted : t.halted = s.halted)
    (hstarted : t.started = s.started) (hmem : t.mem = s.mem) (hstack : t.stack = s.stack) (hsp : t.sp = s.sp) : t.Inv :=
  hinv.of_frame hcfg hhalted hstarted (hmem ▸ hinv.mem_wf) (by rw [hstack]) (hsp ▸ hinv.sp_le)

/-- A report of a kind other than OutOfBoundsAccess, made by a STEP, sets the mark only where the policy says halt. -/
theorem State.Inv.reported (hinv : s.Inv) (hstarted : s.started = true) {r : ErrorReport}
    (hkind : r.kind ≠ .outOfBoundsAccess) : (s.reported r).Inv := by
  have hmark : (s.reported r).halted = haltMark s r := rfl
  obtain ⟨hpolicy, hnew⟩ | ⟨-, hold⟩ := haltMark_cases s r
  · have hsome : ∀ r', (s.reported r).halted = some r' → r' = r := fun r' h' =>
      (Option.some.inj (h'.symm.trans (hmark.trans hnew)))
    exact
      { cfg_wf := hinv.cfg_wf
        mem_wf := hinv.mem_wf
        stack_length := hinv.stack_length
        sp_le := hinv.sp_le
        halted_started := fun _ => hstarted
        halted_policy := fun r' h' => by rw [hsome r' h']; exact hpolicy
        halted_kind := fun r' h' => by rw [hsome r' h']; exact hkind }
  · exact hinv.of_same rfl (hmark.trans hold) rfl rfl rfl rfl

theorem State.Inv.dequeue (hinv : s.Inv) : s.dequeue.Inv := hinv.of_same rfl rfl rfl rfl rfl rfl

theorem State.Inv.memWriteList (hinv : s.Inv) (a : Nat) (bs : List Byte) : (s.memWriteList a bs).Inv :=
  hinv.of_frame (by simp) (by simp) (by simp) (s.memWriteList_wf bs a hinv.mem_wf) (by simp) (by simpa using hinv.sp_le)

theorem State.Inv.respond (hinv : s.Inv) (r : Response) : (s.respond r).Inv :=
  hinv.of_same rfl rfl rfl rfl rfl rfl

/-- A STEP that runs finds no halted mark, so setting the started bit keeps the invariant. -/
theorem State.Inv.postFetch (hinv : s.Inv) (hrun : s.halted = none) (d : Option Byte) : (s.postFetch d).Inv where
  cfg_wf := hinv.cfg_wf
  mem_wf := hinv.mem_wf
  stack_length := hinv.stack_length
  sp_le := hinv.sp_le
  halted_started := fun _ => rfl
  halted_policy := hinv.halted_policy
  halted_kind := by rw [State.postFetch_halted, hrun]; intro r h; cases h

/-- The state after RESET meets the invariant, whatever the parameters in their ranges are. -/
theorem resetWith_inv {p : Config} (n : Nat) (q : List Command) (hp : p.wf = true) : (State.resetWith p n q).Inv where
  cfg_wf := hp
  mem_wf := rfl
  stack_length := List.length_replicate
  sp_le := Nat.zero_le _
  halted_started := fun h => absurd rfl h
  halted_policy := fun _ h => by cases h
  halted_kind := fun _ h => by cases h

/-- The effect of an instruction of a running STEP keeps the invariant. -/
theorem Effect.inv (h : Effect s i t) (hinv : s.Inv) (hstarted : s.started = true) : t.Inv := by
  cases h with
  | sysNop nnn => exact hinv
  | sysReport nnn => exact hinv.reported hstarted (by simp)
  | underflow =>
    have hpc : (s.setPc programStart).Inv := hinv.of_same rfl rfl rfl rfl rfl rfl
    exact hpc.reported hstarted (by simp)
  | pop w => exact hinv.of_frame rfl rfl rfl hinv.mem_wf rfl (Nat.le_trans (Nat.sub_le _ _) hinv.sp_le)
  | overflow nnn => exact hinv.reported hstarted (by simp)
  | push nnn hroom =>
    exact hinv.of_frame rfl rfl rfl hinv.mem_wf List.length_set (Nat.lt_of_le_of_ne hinv.sp_le hroom)
  | store bs hi => exact hinv.memWriteList _ bs
  | _ => exact hinv.of_same (by simp) (by simp) (by simp) (by simp) (by simp) (by simp)

theorem Performed.inv (h : Performed s c t) (hinv : s.Inv) : t.Inv := by
  cases h with
  | reset => exact resetWith_inv s.drawCount s.inputs hinv.cfg_wf
  | loadFont g => exact (hinv.memWriteList _ _).respond _
  | loadProgram image => exact (hinv.memWriteList _ _).respond _
  | setKeys keys => exact hinv.of_same rfl rfl rfl rfl rfl rfl
  | tick => exact hinv.of_same rfl rfl rfl rfl rfl rfl
  | observe r hc => exact hinv.respond r
  | run d hrun hword heffect => exact heffect.inv (hinv.postFetch hrun d) rfl
  | unknown d hrun => exact (hinv.postFetch hrun d).reported rfl (by simp)

/-- Settles O52: each command keeps the invariant, a STEP by the effect of its instruction. -/
theorem stepKeepsTheInvariant : Obligations.StepKeepsTheInvariant := fun _ _ hinv h =>
  (performed_of_step h).inv hinv.dequeue

/-- Settles O51: RESET writes every field the invariant speaks of. -/
theorem resetMeetsTheInvariant : Obligations.ResetMeetsTheInvariant :=
  ⟨fun _ n q hp => resetWith_inv n q hp, resetWith_inv 0 [] rfl⟩

/-! ### No fault under the invariant (60_exceptions.md R94) -/

/-- Under the invariant every SP that RET or CALL uses is an index of the stack. -/
theorem State.Inv.no_misfit (hinv : s.Inv) : ¬ StackMisfit s i := by
  intro h
  have hlen := hinv.stack_length
  have hsp := hinv.sp_le
  cases i with
  | ret => obtain ⟨hne, hnone⟩ := h; rw [List.getElem?_eq_none_iff] at hnone; omega
  | call nnn => obtain ⟨hne, hle⟩ := h; omega
  | _ => exact h

theorem stepCommand_ne_fault (hinv : s.Inv) (d : Option Byte) (f : Fault) : stepCommand d s ≠ .fault f := by
  intro h
  obtain ⟨r, -, hr⟩ | ⟨hrun, i, -, hexec⟩ | ⟨-, -, hraise⟩ := stepCommand_cases d s
  · cases hr.symm.trans h
  · exact (hinv.postFetch hrun d).no_misfit (misfit_of_exec_fault (hexec.symm.trans h))
  · cases hraise.symm.trans h

/-- Of the commands STEP alone can fault. -/
theorem command_ne_fault (hinv : s.Inv) (c : Command) (f : Fault) : command c s ≠ .fault f := by
  cases c with
  | step d => exact stepCommand_ne_fault hinv d f
  | loadFont g => simp only [command, loadFont]; split <;> simp
  | loadProgram image =>
    simp only [command, loadProgram]
    split
    · simp
    · split <;> simp
  | _ => simp [command]

/-- Settles O53: the invariant leaves RET and CALL no stack that does not fit, and without it they fault. -/
theorem noStepGoesOutOfBounds : Obligations.NoStepGoesOutOfBounds := by
  refine ⟨fun s f hinv => command_ne_fault hinv.dequeue _ f, fun s hsp hnone => ?ret, fun nnn s hroom hlen => ?call⟩
  case ret =>
    obtain ⟨h0, -⟩ | ⟨-, w, hw, -⟩ | ⟨-, -, h⟩ := execRet_cases s
    · exact absurd h0 hsp
    · cases hw.symm.trans hnone
    · exact ⟨_, h⟩
  case call =>
    obtain ⟨hfull, -⟩ | ⟨-, hlt, -⟩ | ⟨-, -, h⟩ := execCall_cases nnn s
    · exact absurd hfull hroom
    · omega
    · exact ⟨_, h⟩

/-! ### Parameters and draws -/

theorem Effect.drawCount_cases (h : Effect s i t) : t.drawCount = s.drawCount ∨ t.drawCount = s.drawCount + 1 := by
  cases h with
  | rnd x nn b => exact .inr rfl
  | _ => exact .inl (by simp)

theorem Performed.cfg (h : Performed s c t) : t.cfg = s.cfg := by
  cases h with
  | run d hrun hword heffect => exact heffect.cfg
  | loadFont g => simp
  | loadProgram image => simp
  | _ => rfl

theorem Performed.drawCount_cases (h : Performed s c t) :
    t.drawCount = s.drawCount ∨ t.drawCount = s.drawCount + 1 := by
  cases h with
  | run d hrun hword heffect => exact heffect.drawCount_cases
  | loadFont g => exact .inl (by simp)
  | loadProgram image => exact .inl (by simp)
  | _ => exact .inl rfl

/-- Settles O55: no command writes the parameters, and one CXNN takes one draw. -/
theorem parametersAndDrawsSurviveEveryStep : Obligations.ParametersAndDrawsSurviveEveryStep := by
  intro s t h
  have hp := performed_of_step h
  have hdraws : t.drawCount = s.drawCount ∨ t.drawCount = s.drawCount + 1 := hp.drawCount_cases
  exact ⟨hp.cfg, by omega, by omega⟩

/-! ### The keypad (60_exceptions.md R106) -/

theorem Performed.key_writers (h : Performed s c t) (hne : t.key ≠ s.key) :
    c = .reset ∨ ∃ keys, c = .setKeys keys := by
  cases h with
  | reset => exact .inl rfl
  | setKeys keys => exact .inr ⟨keys, rfl⟩
  | run d hrun hword heffect => exact absurd heffect.key hne
  | loadFont g => simp at hne
  | loadProgram image => simp at hne
  | _ => exact absurd rfl hne

theorem keyDown_of_lt {k : Nat} (s : State) (h : k < 16) : s.keyDown k = s.key[k] := by
  simp [State.keyDown, h]

theorem keyDown_of_ge {k : Nat} (s : State) (h : 16 ≤ k) : s.keyDown k = false := by
  simp [State.keyDown, Nat.not_lt.2 h]

theorem keeps_setKeys (s : State) (keys : Vector Bool 16) :
    KeepsAllBut (fun c => (∃ k, k < 16 ∧ c = .key k) ∨ c = .response) s (setKeys keys s) := by
  intro c hc
  cases c with
  | response => exact absurd (.inr rfl) hc
  | key k =>
    have hk : 16 ≤ k := Nat.le_of_not_lt fun h => hc (.inl ⟨k, h, rfl⟩)
    exact (keyDown_of_ge _ hk).trans (keyDown_of_ge s hk).symm
  | _ => rfl

/-- Settles O45: SET_KEYS writes the keypad whole, and the instructions do not write it. -/
theorem onlyTheHostWritesKeys : Obligations.OnlyTheHostWritesKeys :=
  ⟨fun keys s => ⟨setKeys keys s, rfl, fun _ hk => keyDown_of_lt _ hk, rfl, keeps_setKeys s keys⟩,
    fun _ _ h hne => (performed_of_step h).key_writers hne⟩

/-! ### The sound output (60_exceptions.md R103) -/

theorem countDown_toNat (b : Byte) : (countDown b).toNat = b.toNat - 1 := by
  unfold countDown
  split
  · next h => simp [h]
  · next h =>
    have hpos : b.toNat ≠ 0 := fun h0 => h (BitVec.eq_of_toNat_eq h0)
    rw [BitVec.toNat_sub_of_le (by show 1 ≤ b.toNat; omega)]
    rfl

/-- A timer stops at this tick exactly if it was 1. -/
theorem countDown_stops_iff (b : Byte) : b ≠ 0 ∧ countDown b = 0 ↔ b = 1 := by
  have hdown := countDown_toNat b
  simp only [ne_eq, BitVec.toNat_eq, hdown]
  show ¬ b.toNat = 0 ∧ b.toNat - 1 = 0 ↔ b.toNat = 1
  omega

theorem soundStopEdge_tick (s : State) : soundStopEdge s (tick s) = true ↔ s.st = 1 := by
  rw [soundStopEdge_iff]
  exact countDown_stops_iff s.st

theorem Performed.sound_stop (h : Performed s c t) (hedge : soundStopEdge s t = true) :
    (c = .tick ∧ s.st = 1) ∨ c = .reset ∨
    ∃ d x, c = .step d ∧ s.halted = none ∧ decode s.cfg.strict59 s.fetchWord = .ok (.ldStVx x) ∧ s.getV x = 0 := by
  obtain ⟨hon, hoff⟩ := (soundStopEdge_iff s t).1 hedge
  have hne : t.st ≠ s.st := fun heq => hon (heq.symm.trans hoff)
  cases h with
  | tick => exact .inl ⟨rfl, (soundStopEdge_tick s).1 hedge⟩
  | reset => exact .inr (.inl rfl)
  | run d hrun hword heffect =>
    obtain ⟨x, rfl, hst⟩ := heffect.st_writers hne
    exact .inr (.inr ⟨d, x, rfl, hrun, hword, hst.symm.trans hoff⟩)
  | loadFont g => simp at hne
  | loadProgram image => simp at hne
  | _ => exact absurd rfl hne

/-- Settles O56: of the commands and instructions three write ST, and a tick stops it at 1. -/
theorem soundStopsOnlyByTickFx18OrReset : Obligations.SoundStopsOnlyByTickFx18OrReset :=
  ⟨fun s => ⟨tick s, rfl, soundStopEdge_tick s⟩, fun _ _ h hedge => (performed_of_step h).sound_stop hedge⟩

/-! ### The halted mark (60_exceptions.md R97) -/

theorem stepCommand_halted {r : ErrorReport} (d : Option Byte) (h : s.halted = some r) :
    stepCommand d s = .refused (.stepHalted r) := by
  simp only [stepCommand, h]

/-- While the mark is set no command but RESET gets at the mark, PC or a V register. -/
theorem Performed.while_halted (h : Performed s c t) (hmark : s.halted ≠ none) (hc : c ≠ .reset) :
    t.halted = s.halted ∧ t.pc = s.pc ∧ ∀ x, t.getV x = s.getV x := by
  cases h with
  | reset => exact absurd rfl hc
  | run d hrun hword heffect => exact absurd hrun hmark
  | unknown d hrun => exact absurd hrun hmark
  | loadFont g => simp
  | loadProgram image => simp
  | _ => exact ⟨rfl, rfl, fun _ => rfl⟩

/-- Settles O11: a halted STEP is refused, and no other command but RESET writes what a STEP writes. -/
theorem haltedUntilReset : Obligations.HaltedUntilReset := by
  intro s r hr
  refine ⟨fun d => stepCommand_halted d hr, fun c keys hc => ?admitted, fun t hc h => ?kept⟩
  case admitted =>
    simp only [List.mem_cons, List.not_mem_nil, or_false] at hc
    rcases hc with rfl | rfl | rfl | rfl | rfl <;> exact ⟨_, rfl⟩
  case kept =>
    have hmark : s.dequeue.halted ≠ none := by simp [hr]
    obtain ⟨hhalted, hpc, hv⟩ := (performed_of_step h).while_halted hmark hc
    exact ⟨hhalted.trans hr, hpc, hv⟩

/-! ### Reports (60_exceptions.md R89 to R91) -/

/-- The status of an instruction is the one STEP began with, or a record with the instruction's own word and address. -/
theorem Effect.response_cases (h : Effect s i t) :
    t.response = s.response ∨
    ∃ k, t.response = .report ⟨k, encode i, s.insAddr⟩ ∧ errorCode k ≤ 3 ∧ i.mnemonic ∈ ["SYS", "RET", "CALL"] := by
  cases h with
  | sysReport nnn => exact .inr ⟨.unknownInstruction, rfl, by decide, by simp [Instr.mnemonic]⟩
  | underflow => exact .inr ⟨.stackUnderflow, rfl, by decide, by simp [Instr.mnemonic]⟩
  | overflow nnn => exact .inr ⟨.stackOverflow, rfl, by decide, by simp [Instr.mnemonic]⟩
  | _ => exact .inl (by simp)

/-- STRICT_5_9 plays a part for the rows of families 5 and 9 only (30_encoding.md R43). -/
theorem decode_strict {strict : Bool} {ins : Word} (h : decode strict ins = .ok i)
    (hi : i.mnemonic ∉ ["SE_REG", "SNE_REG"]) : decode true ins = .ok i := by
  cases strict with
  | true => exact h
  | false =>
    by_cases h5 : fieldOp ins = 0x5#4
    · rw [decode_family5 false h5, decodeFamily5_loose] at h
      cases h
      simp [Instr.mnemonic] at hi
    by_cases h9 : fieldOp ins = 0x9#4
    · rw [decode_family9 false h9, decodeFamily9_loose] at h
      cases h
      simp [Instr.mnemonic] at hi
    · rw [← h]
      unfold decode
      split
      case h_6 | h_10 => contradiction
      all_goals rfl

theorem insAddr_postFetch (s : State) (d : Option Byte) : (s.postFetch d).insAddr = s.pc :=
  BitVec.add_sub_cancel s.pc 2

/-- Settles O10: the word the decoder read is the encoding of what it decoded to, and the post-fetch PC is 2 past it. -/
theorem everyReportCarriesItsWordAndAddress : Obligations.EveryReportCarriesItsWordAndAddress := by
  refine ⟨by decide, fun s t d h => ?_⟩
  cases performed_of_command h with
  | observe r hc => simp at hc
  | unknown d hrun => exact .inr ⟨_, rfl, rfl, rfl, by simp [errorCode]⟩
  | @run d i t hrun hword heffect =>
    obtain hok | ⟨k, hreport, hcode, hi⟩ := heffect.response_cases
    · exact .inl hok
    · have hstrict : decode true s.fetchWord = .ok i := decode_strict hword fun hmem => by
        simp only [List.mem_cons, List.not_mem_nil, or_false] at hi hmem
        rcases hmem with h5 | h9 <;> simp_all
      exact .inr ⟨_, hreport, (encode_of_decode hstrict).1, insAddr_postFetch s d, hcode⟩

theorem stepCommand_unknown {e : DecodeError} (d : Option Byte) (hrun : s.halted = none)
    (hword : decode s.cfg.strict59 s.fetchWord = .error e) :
    stepCommand d s = .next ((s.postFetch d).reported ⟨.unknownInstruction, s.fetchWord, s.pc⟩) := by
  simp only [stepCommand, hrun, hword, raise_eq]

/-- PC counts modulo 2^16 (30_encoding.md R42). -/
theorem toNat_pc_add_two (w : Word) : (w + 2).toNat = (w.toNat + 2) % 65536 := BitVec.toNat_add w 2

/-- Settles O9: the report is made on the post-fetch state. -/
theorem unknownWordIsReported : Obligations.UnknownWordIsReported := by
  intro s d e hrun hword
  refine ⟨_, stepCommand_unknown d hrun hword, toNat_pc_add_two s.pc, reported_from (s.postFetch d) _ _ _, ?frame⟩
  case frame =>
    refine ((keeps_postFetch s d).mono ?_).trans ((keeps_reported _ _).mono ?_)
    · rintro c (h | h | h | h) <;> simp [h]
    · rintro c (h | h) <;> simp [h]

/-! ### The fetch and the step (30_encoding.md R42, R45) -/

theorem fetchWord_toNat (s : State) :
    s.fetchWord.toNat = 256 * (s.memRead s.pc.toNat).toNat + (s.memRead (s.pc.toNat + 1)).toNat := by
  rw [State.fetchWord, State.wordAt, joinBytes_toNat, Nat.mul_comm]

/-- Settles O7: a word is its two bytes joined, and an address is reduced where the byte is read. -/
theorem fetchIsBigEndianAndAdvances : Obligations.FetchIsBigEndianAndAdvances := fun s d =>
  ⟨fetchWord_toNat s, toNat_pc_add_two s.pc, keeps_postFetch s d⟩

theorem stepCommand_run (d : Option Byte) (hrun : s.halted = none)
    (hword : decode s.cfg.strict59 s.fetchWord = .ok i) : stepCommand d s = exec i (s.postFetch d) := by
  simp only [stepCommand, hrun, hword]

/-- Settles O8: the oldest waiting command is performed, and with none waiting STEP is. -/
theorem stepRunsTheDecodedInstruction : Obligations.StepRunsTheDecodedInstruction := by
  refine ⟨fun s i hrun hword => ⟨fun h => ?_, fun d q h => ?_⟩, fun s c q h => step_of_inputs h,
    fun s h => step_of_no_inputs h⟩
  · rw [step_of_no_inputs h]; exact stepCommand_run none hrun hword
  · rw [step_of_inputs h]; exact stepCommand_run d hrun hword

end Sys2Proof.Machine
end

section
/-!
PROOFS. Control flow and the call stack (41_control_flow.md). Error reports name the encoded word as a number, and the
stack changes at the one entry at SP.
-/
namespace Sys2Proof.Machine

theorem wordNNN_eq_ofNat (op : BitVec 4) (nnn : Addr12) :
    wordNNN op nnn = BitVec.ofNat 16 (op.toNat * 4096 + nnn.toNat) := by
  rw [← wordNNN_toNat, BitVec.ofNat_toNat, BitVec.setWidth_eq]

theorem encode_sys_eq (nnn : Addr12) : encode (.sys nnn) = BitVec.ofNat 16 nnn.toNat :=
  (wordNNN_eq_ofNat 0x0#4 nnn).trans (congrArg (BitVec.ofNat 16) (Nat.zero_add _))

theorem encode_call_eq (nnn : Addr12) : encode (.call nnn) = BitVec.ofNat 16 (0x2000 + nnn.toNat) :=
  wordNNN_eq_ofNat 0x2#4 nnn

/-- Settles O13: SYS reports, or does nothing, by its policy. -/
theorem sysFollowsItsPolicy : Obligations.SysFollowsItsPolicy := by
  refine ⟨fun strict ins hword hcls hret => decode_sys strict (fieldOp_of_masked hword) hcls hret, fun nnn s => ?_⟩
  rw [exec_sys, ← encode_sys_eq]
  obtain ⟨hp, h⟩ | ⟨hp, h⟩ := execSys_cases nnn s
  · refine ⟨fun _ => ⟨_, h.trans (raise_eq _ _ _ _), reported_from s _ _ _, keeps_reported s _⟩, fun hnop => ?_⟩
    cases hp.symm.trans hnop
  · refine ⟨fun hunknown => ?_, fun _ => h⟩
    cases hp.symm.trans hunknown

/-! ### RET and CALL -/

theorem exec_ret_empty {s : State} (hsp : s.sp = 0) :
    exec .ret s = .next ((s.setPc programStart).reported ⟨.stackUnderflow, 0x00EE#16, s.pc - 2⟩) := by
  simp only [exec_ret, execRet, hsp, if_true, raise_eq]
  rfl

/-- RET with an entry on the stack (R53). -/
theorem exec_ret_pop {s : State} {w : Word} (hsp : s.sp ≠ 0) (hw : s.stack[s.sp - 1]? = some w) :
    exec .ret s = .next { s with sp := s.sp - 1, pc := w } := by
  rw [exec_ret]
  obtain ⟨h0, -⟩ | ⟨-, w', hw', h⟩ | ⟨-, hnone, -⟩ := execRet_cases s
  · exact absurd h0 hsp
  · cases hw'.symm.trans hw; exact h
  · cases hnone.symm.trans hw

theorem exec_call_full {s : State} (nnn : Addr12) (hfull : s.sp = s.cfg.stackDepth) :
    exec (.call nnn) s = .next (s.reported ⟨.stackOverflow, encode (.call nnn), s.pc - 2⟩) := by
  simp only [exec_call, execCall, hfull, if_true, raise_eq]
  rfl

/-- CALL with room on the stack (R55). -/
theorem exec_call_push {s : State} (nnn : Addr12) (hroom : s.sp ≠ s.cfg.stackDepth) (hlt : s.sp < s.stack.length) :
    exec (.call nnn) s = .next { s with stack := s.stack.set s.sp s.pc, sp := s.sp + 1, pc := zextAddr nnn } := by
  rw [exec_call]
  obtain ⟨hfull, -⟩ | ⟨-, -, h⟩ | ⟨-, hle, -⟩ := execCall_cases nnn s
  · exact absurd hfull hroom
  · exact h
  · omega

theorem State.Inv.sp_lt_length {s : State} (hinv : s.Inv) (hroom : s.sp ≠ s.cfg.stackDepth) :
    s.sp < s.stack.length := by
  have hlen := hinv.stack_length
  have hsp := hinv.sp_le
  omega

theorem State.Inv.exists_top {s : State} (hinv : s.Inv) (hsp : s.sp ≠ 0) : ∃ w, s.stack[s.sp - 1]? = some w := by
  have hlen := hinv.stack_length
  have hle := hinv.sp_le
  exact ⟨_, List.getElem?_eq_getElem (by omega)⟩

theorem keeps_pop (s : State) (w : Word) :
    KeepsAllBut (fun c => c = .pc ∨ c = .sp) s { s with sp := s.sp - 1, pc := w } := by
  intro c hc
  cases c with
  | pc => simp at hc
  | sp => simp at hc
  | _ => rfl

theorem keeps_push (s : State) (w p : Word) :
    KeepsAllBut (fun c => c = .pc ∨ c = .sp ∨ c = .stack s.sp) s
      { s with stack := s.stack.set s.sp w, sp := s.sp + 1, pc := p } := by
  intro c hc
  cases c with
  | stack k =>
    have hk : s.sp ≠ k := fun h => hc (.inr (.inr (by rw [h])))
    exact List.getElem?_set_ne hk
  | pc => simp at hc
  | sp => simp at hc
  | _ => rfl

/-- Settles O14: the report on an empty stack, and the pop of the top entry under the invariant. -/
theorem returnPopsOrReports : Obligations.ReturnPopsOrReports := by
  refine ⟨decodes_ret, fun s => ⟨fun hsp => ?report, fun hinv hsp => ?pop⟩⟩
  case report =>
    refine ⟨_, exec_ret_empty hsp, rfl, reported_from (s.setPc programStart) _ _ _, ?_⟩
    exact ((keeps_setPc s programStart).mono fun _ => .inl).trans ((keeps_reported _ _).mono fun _ => .inr)
  case pop =>
    obtain ⟨w, hw⟩ := hinv.exists_top hsp
    exact ⟨w, _, hw, exec_ret_pop hsp hw, rfl, rfl, keeps_pop s w⟩

/-- Settles O16: the report on a full stack, and the push at SP under the invariant. -/
theorem callPushesOrReports : Obligations.CallPushesOrReports := by
  refine ⟨decodes_call, fun nnn s => ⟨fun hfull => ?report, fun hinv hroom => ?push⟩⟩
  case report =>
    rw [← encode_call_eq]
    exact ⟨_, exec_call_full nnn hfull, reported_from s _ _ _, keeps_reported s _⟩
  case push =>
    have hlt := hinv.sp_lt_length hroom
    exact ⟨_, exec_call_push nnn hroom hlt, List.getElem?_set_self hlt, rfl, toNat_zextAddr nnn, keeps_push s _ _⟩

/-- Settles O17: RET pops the entry CALL pushed, and the entry stays behind. -/
theorem returnUndoesCall : Obligations.ReturnUndoesCall := by
  intro nnn s t hinv hroom hcall
  have hlt := hinv.sp_lt_length hroom
  cases (exec_call_push nnn hroom hlt).symm.trans hcall
  refine ⟨_, exec_ret_pop (Nat.succ_ne_zero _) (List.getElem?_set_self hlt), rfl, rfl, fun c hc => ?_⟩
  cases c with
  | stack k =>
    have hk : s.sp ≠ k := fun h => hc (by rw [h])
    exact List.getElem?_set_ne hk
  | _ => rfl

/-! ### Skips and the jump with offset -/

/-- A skip adds 2 to PC modulo 2^16 where its test holds (R51). -/
theorem toNat_pc_skipIf (s : State) (c : Bool) :
    (s.skipIf c).pc.toNat = if c = true then (s.pc.toNat + 2) % 65536 else s.pc.toNat := by
  cases c with
  | true => exact toNat_pc_add_two s.pc
  | false => rfl

/-- Settles O18: the tests are equality of bytes and its negation. -/
theorem skipsAgainstAnImmediate : Obligations.SkipsAgainstAnImmediate := by
  refine ⟨decodes_seByte, decodes_sneByte, fun x nn s => ⟨?eq, ?ne⟩⟩
  case eq => exact ⟨_, exec_seByte x nn s, by rw [toNat_pc_skipIf]; simp only [beq_iff_eq], keeps_skipIf s _⟩
  case ne => exact ⟨_, exec_sneByte x nn s, by rw [toNat_pc_skipIf]; simp only [bne_iff_ne], keeps_skipIf s _⟩

/-- Settles O19: without STRICT_5_9 the family alone tells the row. -/
theorem skipsAgainstARegister : Obligations.SkipsAgainstARegister := by
  refine ⟨decodes_seReg, decodes_sneReg, fun ins hword => ?loose5, fun ins hword => ?loose9, fun x y s => ⟨?eq, ?ne⟩⟩
  case loose5 => rw [decode_family5 false (fieldOp_of_masked hword), decodeFamily5_loose]
  case loose9 => rw [decode_family9 false (fieldOp_of_masked hword), decodeFamily9_loose]
  case eq => exact ⟨_, exec_seReg x y s, by rw [toNat_pc_skipIf]; simp only [beq_iff_eq], keeps_skipIf s _⟩
  case ne => exact ⟨_, exec_sneReg x y s, by rw [toNat_pc_skipIf]; simp only [bne_iff_ne], keeps_skipIf s _⟩

@[simp] theorem toNat_zextByte (b : Byte) : (zextByte b).toNat = b.toNat := BitVec.toNat_setWidth_of_le (by decide)

/-- Settles O20: the largest sum is 0x10FE, so no bit is lost in 16 bits. -/
theorem jumpWithOffsetAddsV0 : Obligations.JumpWithOffsetAddsV0 := by
  refine ⟨decodes_jpV0, fun nnn s => ⟨_, exec_jpV0 nnn s, ?_, keeps_setPc s _⟩⟩
  have hnnn := nnn.isLt
  have hv := (s.getV 0x0#4).isLt
  rw [State.setPc_pc, BitVec.toNat_add, toNat_zextAddr, toNat_zextByte, reg0, Nat.mod_eq_of_lt (by omega)]

end Sys2Proof.Machine
end

section
/-!
PROOFS. The flag writers and RND (42_alu.md). Each flag writer is one `setResultFlag`: VF holds the flag, and V[X] the
result where X is not F.
-/
namespace Sys2Proof.Machine

/-- The result, where it is not overwritten by the flag. -/
theorem getV_setResultFlag_result {x : Reg} (s : State) (r : Byte) (c : Bool) (hx : x ≠ 0xF#4) :
    (s.setResultFlag x r c).getV x = r := by
  rw [State.getV_setResultFlag, regF, if_neg hx, if_pos rfl]

/-- The flag, whatever the destination (R61). -/
theorem getV_setResultFlag_flag (s : State) (x : Reg) (r : Byte) (c : Bool) :
    (s.setResultFlag x r c).getV 0xF#4 = flagByte c := by
  rw [State.getV_setResultFlag, regF, if_pos rfl]

theorem toNat_flagByte (c : Bool) : (flagByte c).toNat = if c = true then 1 else 0 := by
  cases c <;> rfl

/-- A bit of a byte as a number. -/
theorem toNat_flagByte_getLsbD (b : Byte) (k : Nat) : (flagByte (b.getLsbD k)).toNat = b.toNat / 2 ^ k % 2 := by
  rw [toNat_flagByte, BitVec.getLsbD, Nat.testBit_eq_decide_div_mod_eq]
  simp only [decide_eq_true_eq]
  split <;> omega

/-- What a flag writer leaves: the result as a number in V[X] unless X is F, the flag as a number in VF, and the rest. -/
theorem setResultFlag_spec {x : Reg} {r : Byte} {c : Bool} {result flag : Nat} (s : State) (hr : r.toNat = result)
    (hc : (flagByte c).toNat = flag) :
    (x ≠ 0xF#4 → ((s.setResultFlag x r c).getV x).toNat = result) ∧
    ((s.setResultFlag x r c).getV 0xF#4).toNat = flag ∧
    KeepsAllBut (fun e => e = .v x ∨ e = .v 0xF#4) s (s.setResultFlag x r c) :=
  ⟨fun hx => by rw [getV_setResultFlag_result s r c hx, hr], by rw [getV_setResultFlag_flag, hc],
    keeps_setResultFlag s x r c⟩

theorem toNat_carry (a b : Byte) :
    (flagByte (carryOut a b)).toNat = if a.toNat + b.toNat > 255 then 1 else 0 := by
  rw [toNat_flagByte]; simp only [carryOut, decide_eq_true_eq]

theorem toNat_notBorrow (a b : Byte) :
    (flagByte (notBorrow a b)).toNat = if a.toNat ≥ b.toNat then 1 else 0 := by
  rw [toNat_flagByte]; simp only [notBorrow, decide_eq_true_eq]

theorem toNat_byte_sub (a b : Byte) : (a - b).toNat = (256 + a.toNat - b.toNat) % 256 := by
  have hb := b.isLt
  rw [BitVec.toNat_sub]
  omega

/-- Settles O23: the flag is the carry of the operands before the writes. -/
theorem addSetsCarry : Obligations.AddSetsCarry :=
  ⟨decodes_addReg, fun x y s => ⟨_, exec_addReg x y s, setResultFlag_spec s (BitVec.toNat_add _ _) (toNat_carry _ _)⟩⟩

/-- Settles O24: the flag is 'not borrow' of the minuend and the subtrahend. -/
theorem subtractsSetNotBorrow : Obligations.SubtractsSetNotBorrow :=
  ⟨decodes_sub, decodes_subn, fun x y s =>
    ⟨⟨_, exec_sub x y s, setResultFlag_spec s (toNat_byte_sub _ _) (toNat_notBorrow _ _)⟩,
      ⟨_, exec_subn x y s, setResultFlag_spec s (toNat_byte_sub _ _) (toNat_notBorrow _ _)⟩⟩⟩

theorem toNat_byte_shr (a : Byte) : (a >>> 1).toNat = a.toNat / 2 := by
  rw [BitVec.toNat_ushiftRight, Nat.shiftRight_eq_div_pow]

theorem toNat_byte_shl (a : Byte) : (a <<< 1).toNat = a.toNat * 2 % 256 := by
  rw [BitVec.toNat_shiftLeft, Nat.shiftLeft_eq]

theorem toNat_shiftedOutRight (a : Byte) : (flagByte (shiftedOutRight a)).toNat = a.toNat % 2 := by
  rw [shiftedOutRight, toNat_flagByte_getLsbD, Nat.pow_zero, Nat.div_one]

/-- Nothing stands above bit 7, so the quotient needs no modulus. -/
theorem toNat_shiftedOutLeft (a : Byte) : (flagByte (shiftedOutLeft a)).toNat = a.toNat / 128 := by
  have ha := a.isLt
  rw [shiftedOutLeft, toNat_flagByte_getLsbD]
  omega

/-- Settles O25: a shift by one halves or doubles, and the bit shifted out is bit 0 or bit 7. -/
theorem shiftsCaptureTheBitShiftedOut : Obligations.ShiftsCaptureTheBitShiftedOut :=
  ⟨decodes_shr, decodes_shl, fun x y s =>
    ⟨⟨_, exec_shr x y s, setResultFlag_spec s (toNat_byte_shr _) (toNat_shiftedOutRight _)⟩,
      ⟨_, exec_shl x y s, setResultFlag_spec s (toNat_byte_shl _) (toNat_shiftedOutLeft _)⟩⟩⟩

theorem drawnByte_some {s : State} {r : Byte} (h : s.draw = some r) : s.drawnByte = r := by
  rw [State.drawnByte, h, Option.getD_some]

theorem drawnByte_none {s : State} (h : s.draw = none) : s.drawnByte = Config.freeByte s.drawCount := by
  rw [State.drawnByte, h, Option.getD_none]

/-- Settles O26: VX is the draw under the mask, whether the host supplied it or not. -/
theorem randomIsTheMaskedDraw : Obligations.RandomIsTheMaskedDraw := by
  refine ⟨decodes_rnd, fun x nn s => ⟨_, exec_rnd x nn s, ?_⟩⟩
  rw [State.getV_setV_same]
  refine ⟨fun r hr k _ => ?supplied, fun hnone => ?free, fun hnn => ?masked, rfl, rfl, ?frame⟩
  case supplied => rw [drawnByte_some hr, BitVec.getLsbD_and]
  case free => rw [drawnByte_none hnone]
  case masked => rw [hnn]; exact BitVec.and_zero
  case frame => exact ((keeps_drawTaken s).mono fun _ => .inr).trans ((keeps_setV s.drawTaken x _).mono fun _ => .inl)

end Sys2Proof.Machine
end

section
/-!
PROOFS. The index register, the keypad and the timers (43_index_memory.md, 45_timers_keypad.md): one write of I, PC, VX
or a timer each.
-/
namespace Sys2Proof.Machine

/-- Settles O28: I is a 16-bit sum. -/
theorem addIndexWrapsWithoutFlag : Obligations.AddIndexWrapsWithoutFlag := by
  refine ⟨decodes_addI, fun x s => ⟨_, exec_addI x s, ?_, keeps_setI s _⟩⟩
  rw [State.setI_i, BitVec.toNat_add, toNat_zextByte]

/-- The mask 0F takes the number modulo 16. -/
theorem lowNibble_eq (b : Byte) : lowNibble b = b.toNat % 16 := by
  rw [lowNibble, BitVec.toNat_and]
  exact Nat.and_two_pow_sub_one_eq_mod b.toNat 4

theorem toNat_glyphAddr (base digit : Nat) : (glyphAddr base digit).toNat = (base + digit * 5) % 65536 :=
  BitVec.toNat_ofNat _ _

theorem Config.fontBase_le {p : Config} (h : p.wf = true) : p.fontBase ≤ 0x1B0 := by
  obtain ⟨-, hfont⟩ := Bool.and_eq_true_iff.1 h
  exact Nat.le_of_add_le_add_right (of_decide_eq_true hfont)

/-- Settles O29: a digit is at most 15, so its glyph begins at most 75 bytes into the table. -/
theorem fontLookupPointsAtTheGlyph : Obligations.FontLookupPointsAtTheGlyph := by
  refine ⟨decodes_ldF, fun x s => ⟨_, exec_ldF x s, ?_⟩⟩
  rw [State.setI_i, toNat_glyphAddr, lowNibble_eq]
  refine ⟨rfl, fun hwf => ?range, keeps_setI s _⟩
  case range =>
    have hbase := Config.fontBase_le hwf
    have hdigit : (s.getV x).toNat % 16 < 16 := Nat.mod_lt _ (by decide)
    rw [Nat.mod_eq_of_lt (by omega)]
    omega

/-- Settles O40: the key tested is that of the low nibble. -/
theorem keySkipsTestTheKeypad : Obligations.KeySkipsTestTheKeypad := by
  refine ⟨decodes_skp, decodes_sknp, fun x s => ⟨⟨_, exec_skp x s, ?skp, keeps_skipIf s _⟩,
    ⟨_, exec_sknp x s, ?sknp, keeps_skipIf s _⟩⟩⟩
  case skp => rw [toNat_pc_skipIf, lowNibble_eq]
  case sknp => rw [toNat_pc_skipIf, lowNibble_eq]; cases s.keyDown ((s.getV x).toNat % 16) <;> rfl

/-- Settles O42: each is one write of its timer. -/
theorem setTimers : Obligations.SetTimers :=
  ⟨decodes_ldDtVx, decodes_ldStVx, fun x s => ⟨⟨_, exec_ldDtVx x s, rfl, keeps_setDt s _⟩,
    ⟨_, exec_ldStVx x s, rfl, soundStopEdge_iff s _, keeps_setSt s _⟩⟩⟩

theorem leastKey_none {s : State} (h : ∀ k, k < 16 → s.keyDown k = false) : s.leastKey = none := by
  simpa [State.leastKey, List.find?_eq_none, numKeys] using h

theorem leastKey_some {s : State} {k : Nat} (hk : k < 16) (hdown : s.keyDown k = true)
    (hleast : ∀ j, j < k → s.keyDown j = false) : s.leastKey = some k := by
  rw [State.leastKey, List.find?_range_eq_some]
  exact ⟨hdown, List.mem_range.2 hk, fun j hj => by simp [hleast j hj]⟩

/-- Going back by 2 modulo 2^16. -/
theorem toNat_pc_sub_two (w : Word) : (w - 2).toNat = (w.toNat + 65534) % 65536 := by
  rw [BitVec.toNat_sub, Nat.add_comm]
  rfl

/-- Settles O43: the search of the keys in order finds none, or the least one pressed. -/
theorem waitForKeyRepeatsOrTakesTheLeast : Obligations.WaitForKeyRepeatsOrTakesTheLeast := by
  refine ⟨decodes_ldVxK, fun x s => ⟨fun hnone => ?wait, fun k hk hdown hleast => ?take⟩⟩
  case wait => exact ⟨_, exec_ldVxK_none (leastKey_none hnone) x, toNat_pc_sub_two s.pc, keeps_setPc s _⟩
  case take =>
    refine ⟨_, exec_ldVxK_some (leastKey_some hk hdown hleast) x, ?_, keeps_setV s x _⟩
    rw [State.getV_setV_same, BitVec.toNat_ofNat, Nat.mod_eq_of_lt (by omega)]

/-! ### TICK (60_exceptions.md R101) -/

theorem toNat_dt_tick (s : State) : (tick s).dt.toNat = s.dt.toNat - 1 := countDown_toNat s.dt
theorem toNat_st_tick (s : State) : (tick s).st.toNat = s.st.toNat - 1 := countDown_toNat s.st

theorem keeps_tick (s : State) : KeepsAllBut (fun c => c = .dt ∨ c = .st ∨ c = .response) s (tick s) :=
  (((keeps_setDt s _).mono fun _ => .inl).trans ((keeps_setSt _ _).mono fun _ h => .inr (.inl h))).trans
    ((keeps_respond _ _).mono fun _ h => .inr (.inr h))

theorem toNat_timers_iterate_tick (n : Nat) : ∀ s : State,
    (Nat.iterate tick n s).dt.toNat = s.dt.toNat - n ∧ (Nat.iterate tick n s).st.toNat = s.st.toNat - n := by
  induction n with
  | zero => intro s; exact ⟨rfl, rfl⟩
  | succ n ih =>
    intro s
    obtain ⟨hdt, hst⟩ := ih (tick s)
    rw [Function.iterate_succ_apply, hdt, hst, toNat_dt_tick, toNat_st_tick]
    exact ⟨by omega, by omega⟩

/-- Settles O44: one tick by the count of each timer, and n of them by induction. -/
theorem tickCountsBothTimersDown : Obligations.TickCountsBothTimersDown :=
  ⟨fun s => ⟨tick s, rfl, toNat_dt_tick s, toNat_st_tick s, rfl, keeps_tick s⟩, toNat_timers_iterate_tick⟩

end Sys2Proof.Machine
end

section
/-!
PROOFS. Transfers between registers and memory (43_index_memory.md R78 to R80), the placed word (log 5), and equality of
memories in canonical form (log 8).
-/
namespace Sys2Proof.Machine

/-- Settles O30: the three digits stand where the list of stores puts them, and each is below 256. -/
theorem bcdStoresThreeDigits : Obligations.BcdStoresThreeDigits := by
  refine ⟨decodes_ldB, fun x s => ⟨_, exec_ldB x s, fun hwf => ?digits,
    keeps_memWriteList s s.i.toNat (bcdDigits (s.getV x))⟩⟩
  case digits =>
    have hv := (s.getV x).isLt
    have hread : ∀ k (hk : k < 3), (s.memWriteList s.i.toNat (bcdDigits (s.getV x))).memRead (s.i.toNat + k) =
        (bcdDigits (s.getV x))[k]'hk := fun k hk =>
      State.memRead_memWriteList_inside (bcdDigits (s.getV x)) s _ k hwf (by simp [bcdDigits, memSize]) hk
    refine ⟨(congrArg BitVec.toNat (hread 0 (by decide))).trans ?_, (congrArg BitVec.toNat (hread 1 (by decide))).trans ?_,
      (congrArg BitVec.toNat (hread 2 (by decide))).trans ?_⟩ <;>
    · simp only [bcdDigits, List.getElem_cons_zero, List.getElem_cons_succ, BitVec.toNat_ofNat]
      omega

/-- The byte FX55 leaves for each register (R79). -/
theorem memRead_dump {s : State} {x y : Reg} (hwf : s.mem.wf = true) (hy : y.toNat ≤ x.toNat) :
    (s.memWriteList s.i.toNat (s.regList x)).memRead (s.i.toNat + y.toNat) = s.getV y := by
  have hx := x.isLt
  have hlen : (s.regList x).length ≤ memSize := by rw [State.regList_length, memSize]; omega
  have hk : y.toNat < (s.regList x).length := by rw [State.regList_length]; omega
  rw [State.memRead_memWriteList_inside _ s _ _ hwf hlen hk, State.regList_getElem, BitVec.ofNat_toNat, BitVec.setWidth_eq]

/-- Settles O31: FX55 stores the list of registers. -/
theorem registerDumpStoresV0ToVx : Obligations.RegisterDumpStoresV0ToVx := by
  refine ⟨decodes_ldMemVx, fun x s => ⟨_, exec_ldMemVx x s, fun hwf y hy => memRead_dump hwf hy, ?_⟩⟩
  rw [← State.regList_length s x]
  exact keeps_memWriteList s _ _

/-- The value FX65 leaves in each register up to X (R80). -/
theorem getV_load {s : State} {x y : Reg} (hy : y.toNat ≤ x.toNat) :
    (s.loadRegs s.i.toNat (x.toNat + 1)).getV y = s.memRead (s.i.toNat + y.toNat) := by
  rw [State.getV_loadRegs s _ y _ x.isLt, if_pos (Nat.lt_succ_of_le hy)]

/-- Settles O32: FX65 loads X + 1 registers. -/
theorem registerLoadReadsV0ToVx : Obligations.RegisterLoadReadsV0ToVx := by
  refine ⟨decodes_ldVxMem, fun x s => ⟨_, exec_ldVxMem x s, fun y hy => getV_load hy, ?_⟩⟩
  refine (keeps_loadRegs s s.i.toNat (x.toNat + 1) x.isLt).mono ?_
  rintro c ⟨y, hy, rfl⟩
  exact ⟨y, Nat.le_of_lt_succ hy, rfl⟩

/-- Settles O33: the loads read the bytes the stores left. -/
theorem loadAfterDumpRestoresRegisters : Obligations.LoadAfterDumpRestoresRegisters := by
  intro x s t u hwf hdump hmem hi
  cases (exec_ldMemVx x s).symm.trans hdump
  refine ⟨_, exec_ldVxMem x u, fun y hy => ?_⟩
  rw [getV_load hy, hi, State.memRead, hmem]
  exact memRead_dump hwf hy

/-- An access depends on its address modulo 4096 only (20_memory.md R25). -/
theorem State.memRead_congr (s : State) {a b : Nat} (h : a % 4096 = b % 4096) : s.memRead a = s.memRead b :=
  congrArg s.mem.read h

/-- Settles O34: the fetch reads the two bytes where FX55 left them. -/
theorem fetchSeesAnEarlierStore : Obligations.FetchSeesAnEarlierStore := by
  intro x y z s t hwf hdump hz hzx hpc
  cases (exec_ldMemVx x s).symm.trans hdump
  have hyx : y.toNat ≤ x.toNat := by omega
  rw [fetchWord_toNat, State.memRead_congr _ hpc, memRead_dump hwf hyx,
    State.memRead_congr _ (show _ % 4096 = (s.i.toNat + z.toNat) % 4096 by omega), memRead_dump hwf hzx]

/-! ### The placed word -/

theorem tableWord_of_toNat (w : Word) : tableWord 16 w.toNat = w := by
  rw [tableWord, Nat.mod_eq_of_lt w.isLt, BitVec.ofNat_toNat, BitVec.setWidth_eq]

/-- The state with a word placed: its two bytes at PC, and nothing in the way of a STEP. -/
theorem withFetchWord_eq (s : State) (w : Word) :
    s.withFetchWord 16 w.toNat = (s.memWriteList s.pc.toNat [highByte w, lowByte w]).readyForStep := by
  rw [State.withFetchWord, tableWord_of_toNat, State.placeWord]

theorem keeps_readyForStep (s : State) : KeepsAllBut (fun c => c = .inputs ∨ c = .halted) s s.readyForStep := by
  intro c hc
  cases c with
  | inputs => simp at hc
  | halted => simp at hc
  | _ => rfl

/-- The word placed at PC is the word at PC. -/
theorem fetchWord_placed {s : State} (w : Word) (hwf : s.mem.wf = true) :
    (s.memWriteList s.pc.toNat [highByte w, lowByte w]).readyForStep.fetchWord = w := by
  have hread : ∀ k (hk : k < 2), (s.memWriteList s.pc.toNat [highByte w, lowByte w]).memRead (s.pc.toNat + k) =
      [highByte w, lowByte w][k]'hk := fun k hk =>
    State.memRead_memWriteList_inside [highByte w, lowByte w] s _ k hwf (by simp [memSize]) hk
  have hhigh := hread 0 (by decide)
  have hlow := hread 1 (by decide)
  rw [State.fetchWord, State.wordAt, State.readyForStep_memRead, State.readyForStep_memRead, State.readyForStep_pc,
    State.memWriteList_pc, hlow]
  exact (congrArg (joinBytes · (lowByte w)) hhigh).trans (joinBytes_high_low w)

/-- Settles O12: two stores at PC, then the waiting list and the mark are cleared. -/
theorem placedWordIsFetchedNext : Obligations.PlacedWordIsFetchedNext := by
  intro s w hwf
  rw [withFetchWord_eq]
  refine ⟨fetchWord_placed w hwf, rfl, rfl, State.memWriteList_wf _ s _ hwf, ?frame⟩
  case frame => exact ((keeps_memWriteList s _ _).mono fun _ => .inl).trans ((keeps_readyForStep _).mono fun _ => .inr)

/-! ### Memories in canonical form -/

/-- The first entry of a memory in form from `lo` on, and the form of the rest. -/
theorem Memory.wfFrom_cons {lo k : Nat} {b : Byte} {m : Memory} (h : Memory.wfFrom lo ((k, b) :: m) = true) :
    k < 4096 ∧ b ≠ Memory.blank ∧ Memory.wfFrom (k + 1) m = true := by
  simp only [Memory.wfFrom, Bool.and_eq_true, decide_eq_true_eq, bne_iff_ne] at h
  obtain ⟨⟨⟨-, hk⟩, hb⟩, hm⟩ := h
  exact ⟨hk, hb, hm⟩

theorem Memory.read_cons_same (k : Nat) (b : Byte) (m : Memory) : Memory.read ((k, b) :: m) k = b := if_pos rfl

theorem Memory.read_cons_ne {k a : Nat} (h : k ≠ a) (b : Byte) (m : Memory) :
    Memory.read ((k, b) :: m) a = Memory.read m a := if_neg h

/-- A memory in form that reads alike at the address of another one's first entry begins there or before. -/
theorem Memory.first_le {lo lo' k l : Nat} {b c : Byte} {m n : Memory} (hm : Memory.wfFrom lo ((k, b) :: m) = true)
    (hn : Memory.wfFrom lo' ((l, c) :: n) = true)
    (hread : Memory.read ((k, b) :: m) k = Memory.read ((l, c) :: n) k) : l ≤ k := by
  obtain ⟨-, hb, -⟩ := Memory.wfFrom_cons hm
  by_contra hlt
  have hbelow : Memory.wfFrom l ((l, c) :: n) = true := by
    simp only [Memory.wfFrom, Bool.and_eq_true, decide_eq_true_eq] at hn ⊢
    exact ⟨⟨⟨Nat.le_refl l, hn.1.1.2⟩, hn.1.2⟩, hn.2⟩
  rw [Memory.read_cons_same, Memory.read_below hbelow (Nat.not_le.1 hlt)] at hread
  exact hb hread

/-- Extensionality: the form leaves one list for each function of the 4096 addresses. -/
theorem Memory.eq_of_read_eq {m : Memory} : ∀ {n : Memory} {lo lo' : Nat}, Memory.wfFrom lo m = true →
    Memory.wfFrom lo' n = true → (∀ a, a < 4096 → m.read a = n.read a) → m = n := by
  induction m with
  | nil =>
    intro n lo lo' _ hn hread
    cases n with
    | nil => rfl
    | cons e n =>
      obtain ⟨l, c⟩ := e
      obtain ⟨hl, hc, -⟩ := Memory.wfFrom_cons hn
      exact absurd ((Memory.read_cons_same l c n).symm.trans (hread l hl).symm) hc
  | cons e m ih =>
    obtain ⟨k, b⟩ := e
    intro n lo lo' hm hn hread
    obtain ⟨hk, hb, hm'⟩ := Memory.wfFrom_cons hm
    cases n with
    | nil => exact absurd ((Memory.read_cons_same k b m).symm.trans (hread k hk)) hb
    | cons e n =>
      obtain ⟨l, c⟩ := e
      obtain ⟨hl, -, hn'⟩ := Memory.wfFrom_cons hn
      obtain rfl : k = l :=
        Nat.le_antisymm (Memory.first_le hn hm (hread l hl).symm) (Memory.first_le hm hn (hread k hk))
      have hbc : b = c := (Memory.read_cons_same k b m).symm.trans ((hread k hk).trans (Memory.read_cons_same k c n))
      have htail : ∀ a, a < 4096 → Memory.read m a = Memory.read n a := fun a ha => by
        by_cases hka : k = a
        · rw [Memory.read_below hm' (by omega), Memory.read_below hn' (by omega)]
        · rw [← Memory.read_cons_ne hka b m, hread a ha, Memory.read_cons_ne hka]
      rw [hbc, ih hm' hn' htail]

/-- Settles O35: the form is in the data, so reads tell the lists apart. -/
theorem memoriesThatReadAlikeAreEqual : Obligations.MemoriesThatReadAlikeAreEqual := fun _ _ hm hn hread =>
  Memory.eq_of_read_eq hm hn hread

end Sys2Proof.Machine
end

section
/-!
PROOFS. RESET, the boot loads and the observations (70_reset_and_hazards.md, 60_exceptions.md R104, R107). Stores at
different addresses commute, because a memory in canonical form is told by its reads, so the two loads do.
-/
namespace Sys2Proof.Machine

/-- What a load leaves: its bytes where it put them, an empty response and the rest as it was. -/
theorem load_spec (s : State) (a : Nat) (bs : List Byte) (hlen : bs.length ≤ memSize) :
    (s.mem.wf = true → ∀ k, (h : k < bs.length) → ((s.memWriteList a bs).respond .empty).memRead (a + k) = bs[k]) ∧
    ((s.memWriteList a bs).respond .empty).response = .empty ∧
    KeepsAllBut (fun c => inBytes a bs.length c ∨ c = .response) s ((s.memWriteList a bs).respond .empty) :=
  ⟨fun hwf k hk => State.memRead_memWriteList_inside bs s a k hwf hlen hk, rfl,
    ((keeps_memWriteList s a bs).mono fun _ => .inl).trans ((keeps_respond _ _).mono fun _ => .inr)⟩

/-- Settles O46: the glyphs are stored as a list from FONT_BASE on. -/
theorem loadFontStoresTheGlyphs : Obligations.LoadFontStoresTheGlyphs := by
  intro g s
  refine ⟨fun hs => ⟨_, command_loadFont g hs, ?_⟩, command_loadFont_late g⟩
  have hlen : g.toList.length = 80 := Vector.length_toList
  obtain ⟨hread, hresponse, hframe⟩ := load_spec s s.cfg.fontBase g.toList (by rw [hlen]; decide)
  rw [hlen] at hframe
  refine ⟨fun hwf k hk => ?_, hresponse, hframe⟩
  rw [hread hwf k (by rw [hlen]; exact hk), Vector.getElem_toList]

/-- Settles O47: the image is stored as a list from 0x200 on. -/
theorem loadProgramStoresTheImage : Obligations.LoadProgramStoresTheImage := by
  intro image s
  refine ⟨fun hs hlen => ⟨_, command_loadProgram hs hlen, ?_⟩, command_loadProgram_large, command_loadProgram_late image⟩
  exact load_spec s 0x200 image (Nat.le_trans hlen (by decide))

/-! ### The two loads commute -/

theorem Memory.write_comm {m : Memory} {a c : Nat} (hm : m.wf = true) (hne : effAddr a ≠ effAddr c) (b d : Byte) :
    (m.write (effAddr a) b).write (effAddr c) d = (m.write (effAddr c) d).write (effAddr a) b := by
  have hleft := Memory.write_wf c d (Memory.write_wf a b hm)
  have hright := Memory.write_wf a b (Memory.write_wf c d hm)
  refine Memory.eq_of_read_eq hleft hright fun p _ => ?_
  by_cases ha : p = effAddr a
  · rw [ha, Memory.read_write_ne hne, Memory.read_write_same b hm, Memory.read_write_same b (Memory.write_wf c d hm)]
  · by_cases hc : p = effAddr c
    · rw [hc, Memory.read_write_same d (Memory.write_wf a b hm), Memory.read_write_ne hne.symm,
        Memory.read_write_same d hm]
    · rw [Memory.read_write_ne hc, Memory.read_write_ne ha, Memory.read_write_ne ha, Memory.read_write_ne hc]

theorem State.memWrite_comm {s : State} {a c : Nat} (hwf : s.mem.wf = true) (hne : effAddr a ≠ effAddr c) (b d : Byte) :
    (s.memWrite a b).memWrite c d = (s.memWrite c d).memWrite a b := by
  simp only [State.memWrite, Memory.write_comm hwf hne b d]

/-- A store outside a list of stores can go before or after it. -/
theorem State.memWriteList_memWrite (d : Byte) (bs : List Byte) : ∀ (s : State) (a c : Nat), s.mem.wf = true →
    (∀ k, k < bs.length → effAddr (a + k) ≠ effAddr c) →
    (s.memWriteList a bs).memWrite c d = (s.memWrite c d).memWriteList a bs := by
  induction bs with
  | nil => intros; rfl
  | cons b bs ih =>
    intro s a c hwf hout
    have hfirst : effAddr a ≠ effAddr c := hout 0 (Nat.succ_pos _)
    have hrest : ∀ k, k < bs.length → effAddr (a + 1 + k) ≠ effAddr c := fun k hk => by
      rw [Nat.add_right_comm]
      exact hout (k + 1) (Nat.succ_lt_succ hk)
    rw [State.memWriteList, State.memWriteList, ih _ _ _ (Memory.write_wf a b hwf) hrest, State.memWrite_comm hwf hfirst]

/-- Two lists of stores to disjoint ranges commute. -/
theorem State.memWriteList_comm (ds bs : List Byte) : ∀ (s : State) (a c : Nat), s.mem.wf = true →
    (∀ k, k < bs.length → ∀ j, j < ds.length → effAddr (a + k) ≠ effAddr (c + j)) →
    (s.memWriteList a bs).memWriteList c ds = (s.memWriteList c ds).memWriteList a bs := by
  induction ds with
  | nil => intros; rfl
  | cons d ds ih =>
    intro s a c hwf hout
    have hfirst : ∀ k, k < bs.length → effAddr (a + k) ≠ effAddr c := fun k hk => hout k hk 0 (Nat.succ_pos _)
    have hrest : ∀ k, k < bs.length → ∀ j, j < ds.length → effAddr (a + k) ≠ effAddr (c + 1 + j) := fun k hk j hj => by
      rw [Nat.add_right_comm]
      exact hout k hk (j + 1) (Nat.succ_lt_succ hj)
    rw [State.memWriteList, State.memWriteList_memWrite d bs s a c hwf hfirst, ih _ _ _ (Memory.write_wf c d hwf) hrest,
      State.memWriteList]

theorem State.respond_memWriteList (r : Response) (bs : List Byte) : ∀ (s : State) (a : Nat),
    (s.respond r).memWriteList a bs = (s.memWriteList a bs).respond r := by
  induction bs with
  | nil => intros; rfl
  | cons b bs ih => intro s a; exact ih (s.memWrite a b) (a + 1)

theorem State.respond_respond (s : State) (r q : Response) : (s.respond r).respond q = s.respond q := rfl

/-- FONT_BASE in its range puts the glyphs below 0x200, where an image begins. -/
theorem font_below_image {p : Config} (hp : p.wf = true) {k j : Nat} (hk : k < 80) (hj : j < 3584) :
    effAddr (p.fontBase + k) ≠ effAddr (programStart.toNat + j) := by
  have hbase := Config.fontBase_le hp
  have hstart : programStart.toNat = 0x200 := rfl
  simp only [effAddr, memSize, hstart]
  omega

/-- Settles O48: the ranges of the two loads are disjoint. -/
theorem bootLoadsCommute : Obligations.BootLoadsCommute := by
  intro g image s hinv hs hlen
  have hdisjoint : ∀ k, k < g.toList.length → ∀ j, j < image.length →
      effAddr (s.cfg.fontBase + k) ≠ effAddr (programStart.toNat + j) := fun k hk j hj =>
    font_below_image hinv.cfg_wf (Vector.length_toList (xs := g) ▸ hk) (Nat.lt_of_lt_of_le hj hlen)
  refine ⟨_, _, _, command_loadFont g hs, command_loadProgram (by simpa using hs) hlen, command_loadProgram hs hlen, ?_⟩
  rw [command_loadFont g (by simpa using hs)]
  simp only [State.respond_memWriteList, State.respond_respond, State.respond_cfg, State.memWriteList_cfg]
  rw [State.memWriteList_comm image g.toList s _ _ hinv.mem_wf hdisjoint]

/-! ### RESET and the observations -/

theorem getV_reset (p : Config) (n : Nat) (q : List Command) (x : Reg) : (State.resetWith p n q).getV x = 0 := by
  simp [State.getV, State.resetWith]

theorem keyDown_reset (p : Config) (n : Nat) (q : List Command) (k : Nat) :
    (State.resetWith p n q).keyDown k = false := by
  by_cases hk : k < 16
  · rw [keyDown_of_lt _ hk]; simp [State.resetWith]
  · exact keyDown_of_ge _ (Nat.le_of_not_lt hk)

theorem pixel_reset (p : Config) (n : Nat) (q : List Command) (px py : Nat) :
    (State.resetWith p n q).pixel px py = false := Framebuffer.pixel_clear px py

/-- Settles O49: each element is read off the state after RESET. -/
theorem resetSetsEveryElement : Obligations.ResetSetsEveryElement := by
  intro s
  refine ⟨resetCommand s, rfl, getV_reset _ _ _, rfl, rfl, rfl, List.length_replicate, fun k hk => ?stack, rfl, rfl,
    keyDown_reset _ _ _, pixel_reset _ _ _, fun _ => rfl, rfl, rfl, rfl, rfl, rfl, rfl⟩
  case stack => exact List.getElem?_replicate_of_lt hk

/-- READ_FB has pixel (x, y) at index 64 y + x (60_exceptions.md R107). -/
theorem readFb_getElem? (s : State) {px py : Nat} (hx : px < 64) (hy : py < 32) :
    s.readFb[py * 64 + px]? = some (s.pixel px py) := by
  have hlt : py * 64 + px < 2048 := by omega
  have hcol : (py * 64 + px) % 64 = px := by omega
  have hrow : (py * 64 + px) / 64 = py := by omega
  rw [State.readFb, Vector.getElem?_ofFn, dif_pos hlt, hcol, hrow]

/-- Settles O50: each observation writes the returned value alone. -/
theorem observationsChangeNothing : Obligations.ObservationsChangeNothing := fun s =>
  ⟨⟨_, s.readFb, rfl, rfl, fun _ _ hx hy => readFb_getElem? s hx hy, keeps_respond s _⟩,
    ⟨_, s.soundActive, rfl, rfl, bne_iff_ne, keeps_respond s _⟩, ⟨_, rfl, rfl, keeps_respond s _⟩⟩

end Sys2Proof.Machine
end

section
/-!
PROOFS. DRW (44_display.md R82). `Blits P a b` says that from `a` to `b` the pixels of `P` are flipped, no other pixel
changes, and the collision flag takes in the pixels of `P` that were set. Plotting one pixel is such a step, and steps on
disjoint sets of pixels compose; columns and rows of a sprite are disjoint because a sprite is smaller than the screen
it wraps on.
-/
namespace Sys2Proof.Machine

/-- The framebuffer and the collision flag after drawing the pixels of `P` once each. -/
structure Blits (P : Nat → Nat → Prop) (a b : Framebuffer × Bool) : Prop where
  covered : ∀ px py, P px py → b.1.pixel px py = !a.1.pixel px py
  uncovered : ∀ px py, ¬ P px py → b.1.pixel px py = a.1.pixel px py
  collision : b.2 = true ↔ a.2 = true ∨ ∃ px py, P px py ∧ a.1.pixel px py = true

theorem Blits.nothing {P : Nat → Nat → Prop} (hP : ∀ px py, ¬ P px py) (a : Framebuffer × Bool) : Blits P a a where
  covered px py h := absurd h (hP px py)
  uncovered _ _ _ := rfl
  collision := ⟨.inl, fun h => h.elim id fun ⟨px, py, h, _⟩ => absurd h (hP px py)⟩

theorem Blits.congr {P Q : Nat → Nat → Prop} {a b : Framebuffer × Bool} (h : Blits P a b)
    (hPQ : ∀ px py, P px py ↔ Q px py) : Blits Q a b where
  covered px py hQ := h.covered px py ((hPQ px py).2 hQ)
  uncovered px py hQ := h.uncovered px py fun hP => hQ ((hPQ px py).1 hP)
  collision := by simp only [h.collision, hPQ]

/-- Two sets of pixels drawn one after the other, no pixel in both. -/
theorem Blits.trans {P Q : Nat → Nat → Prop} {a b c : Framebuffer × Bool} (h1 : Blits P a b) (h2 : Blits Q b c)
    (hdisjoint : ∀ px py, P px py → ¬ Q px py) : Blits (fun px py => P px py ∨ Q px py) a c where
  covered px py h := by
    rcases h with hP | hQ
    · rw [h2.uncovered px py (hdisjoint px py hP), h1.covered px py hP]
    · rw [h2.covered px py hQ, h1.uncovered px py fun hP => hdisjoint px py hP hQ]
  uncovered px py h := by
    rw [h2.uncovered px py fun hQ => h (.inr hQ), h1.uncovered px py fun hP => h (.inl hP)]
  collision := by
    have hold : ∀ px py, Q px py → b.1.pixel px py = a.1.pixel px py := fun px py hQ =>
      h1.uncovered px py fun hP => hdisjoint px py hP hQ
    rw [h2.collision, h1.collision]
    constructor
    · rintro ((h | ⟨px, py, hP, hset⟩) | ⟨px, py, hQ, hset⟩)
      · exact .inl h
      · exact .inr ⟨px, py, .inl hP, hset⟩
      · exact .inr ⟨px, py, .inr hQ, (hold px py hQ).symm.trans hset⟩
    · rintro (h | ⟨px, py, hP | hQ, hset⟩)
      · exact .inl (.inl h)
      · exact .inl (.inr ⟨px, py, hP, hset⟩)
      · exact .inr ⟨px, py, hQ, (hold px py hQ).trans hset⟩

/-- A pixel is the same at coordinates that agree modulo 64 and 32. -/
theorem Framebuffer.pixel_congr (f : Framebuffer) {x y px py : Nat} (hx : px % 64 = x % 64) (hy : py % 32 = y % 32) :
    f.pixel px py = f.pixel x y := by
  simp only [Framebuffer.pixel, displayW, displayH, hx, hy]

theorem blits_plotPixel (a : Framebuffer × Bool) (x y : Nat) :
    Blits (fun px py => px % 64 = x % 64 ∧ py % 32 = y % 32) a (plotPixel a x y) := by
  obtain ⟨hfb, hflag⟩ := plotPixel_spec a x y
  refine ⟨fun px py h => ?covered, fun px py h => ?uncovered, ?collision⟩
  case covered => rw [hfb, Framebuffer.pixel_flip]; simp [h]
  case uncovered => rw [hfb, Framebuffer.pixel_flip, ← Bool.decide_and, decide_eq_false h, Bool.xor_false]
  case collision =>
    rw [hflag, Bool.or_eq_true]
    refine or_congr_right ⟨fun hset => ⟨x, y, ⟨rfl, rfl⟩, hset⟩, ?_⟩
    rintro ⟨px, py, ⟨hx, hy⟩, hset⟩
    exact (a.1.pixel_congr hx hy).symm.trans hset

/-! ### Columns and rows -/

/-- Pixel (px, py) is column `c` of a sprite row at (x0, y), and the row's bit there is 1 (bit 7 leftmost). -/
def bitCovers (row : Byte) (x0 y c px py : Nat) : Prop :=
  (x0 + c) % 64 = px % 64 ∧ y % 32 = py % 32 ∧ row.getLsbD (7 - c) = true

/-- Pixel (px, py) is covered by one of the first `n` columns of a sprite row. -/
def rowCovers (row : Byte) (x0 y n px py : Nat) : Prop := ∃ c, c < n ∧ bitCovers row x0 y c px py

/-- Pixel (px, py) is covered by one of the first `n` rows of the sprite at I: `spriteCovers`, row by row. -/
theorem spriteCovers_iff (s : State) (x0 y0 n px py : Nat) :
    spriteCovers s x0 y0 n px py ↔ ∃ r, r < n ∧ rowCovers (s.memRead (s.i.toNat + r)) x0 (y0 + r) 8 px py := by
  simp only [spriteCovers, rowCovers, bitCovers]
  constructor
  · rintro ⟨r, c, hr, hc, hbit⟩; exact ⟨r, hr, c, hc, hbit⟩
  · rintro ⟨r, hr, c, hc, hbit⟩; exact ⟨r, c, hr, hc, hbit⟩

theorem rowCovers_succ (row : Byte) (x0 y n px py : Nat) :
    rowCovers row x0 y (n + 1) px py ↔ rowCovers row x0 y n px py ∨ bitCovers row x0 y n px py :=
  Nat.exists_lt_succ_right

theorem spriteCovers_succ (s : State) (x0 y0 n px py : Nat) : spriteCovers s x0 y0 (n + 1) px py ↔
    spriteCovers s x0 y0 n px py ∨ rowCovers (s.memRead (s.i.toNat + n)) x0 (y0 + n) 8 px py := by
  rw [spriteCovers_iff, spriteCovers_iff, Nat.exists_lt_succ_right]

/-- At most 64 columns fit without two of them meeting on the screen. -/
theorem rowCovers_disjoint {row : Byte} {x0 y n px py : Nat} (hn : n < 64) (h : rowCovers row x0 y n px py) :
    ¬ bitCovers row x0 y n px py := by
  obtain ⟨c, hc, hcol, -, -⟩ := h
  rintro ⟨hcol', -, -⟩
  omega

theorem blits_blitCols (row : Byte) (x0 y : Nat) (a : Framebuffer × Bool) :
    ∀ n, n ≤ 64 → Blits (rowCovers row x0 y n) a (blitCols row x0 y a n) := by
  intro n
  induction n with
  | zero => exact fun _ => .nothing (fun px py ⟨c, hc, _⟩ => Nat.not_lt_zero c hc) a
  | succ n ih =>
    intro hn
    have hfirst := ih (Nat.le_of_succ_le hn)
    cases hbit : row.getLsbD (7 - n) with
    | false =>
      have hlast : ∀ px py, ¬ bitCovers row x0 y n px py := fun px py ⟨_, _, h⟩ => by rw [hbit] at h; cases h
      rw [blitCols_zero_bit hbit]
      exact hfirst.congr fun px py => ((rowCovers_succ row x0 y n px py).trans (or_iff_left (hlast px py))).symm
    | true =>
      have hlast : Blits (bitCovers row x0 y n) (blitCols row x0 y a n) (blitCols row x0 y a (n + 1)) := by
        rw [blitCols_one_bit hbit]
        refine (blits_plotPixel _ _ _).congr fun px py => ?_
        simp only [bitCovers, hbit, Nat.mod_mod, and_true, eq_comm]
      exact (hfirst.trans hlast fun _ _ => rowCovers_disjoint hn).congr fun px py =>
        (rowCovers_succ row x0 y n px py).symm

/-- At most 32 rows fit without two of them meeting on the screen. -/
theorem spriteCovers_disjoint {s : State} {x0 y0 n px py : Nat} (hn : n < 32) (h : spriteCovers s x0 y0 n px py)
    (row : Byte) : ¬ rowCovers row x0 (y0 + n) 8 px py := by
  obtain ⟨r, -, hr, -, -, hrow, -⟩ := h
  rintro ⟨-, -, -, hrow', -⟩
  omega

theorem blits_blitRows (s : State) (x0 y0 : Nat) :
    ∀ n, n ≤ 32 → Blits (spriteCovers s x0 y0 n) (s.fb, false) (blitRows s x0 y0 n) := by
  intro n
  induction n with
  | zero => exact fun _ => .nothing (fun px py ⟨r, _, hr, _⟩ => Nat.not_lt_zero r hr) _
  | succ n ih =>
    intro hn
    have hfirst := ih (Nat.le_of_succ_le hn)
    have hlast : Blits (rowCovers (s.memRead (s.i.toNat + n)) x0 (y0 + n) 8) (blitRows s x0 y0 n)
        (blitRows s x0 y0 (n + 1)) := blits_blitCols _ _ _ _ 8 (by decide)
    exact (hfirst.trans hlast fun _ _ h => spriteCovers_disjoint hn h _).congr fun px py =>
      (spriteCovers_succ s x0 y0 n px py).symm

/-! ### DRW -/

/-- Pixel (px, py) is covered by the sprite DRW draws: at (VX, VY), N rows of it. -/
def drawCovers (s : State) (x y : Reg) (n : BitVec 4) (px py : Nat) : Prop :=
  spriteCovers s (s.getV x).toNat (s.getV y).toNat n.toNat px py

/-- The state DRW leaves: every covered pixel flipped, VF the collision, and nothing else (R82). -/
theorem exec_drw_spec (x y : Reg) (n : BitVec 4) (s : State) : ∃ t, exec (.drw x y n) s = .next t ∧
    (∀ px py, drawCovers s x y n px py → t.pixel px py = !s.pixel px py) ∧
    (∀ px py, ¬ drawCovers s x y n px py → t.pixel px py = s.pixel px py) ∧
    ((∃ px py, drawCovers s x y n px py ∧ s.pixel px py = true) → t.getV 0xF#4 = 1) ∧
    (¬ (∃ px py, drawCovers s x y n px py ∧ s.pixel px py = true) → t.getV 0xF#4 = 0) ∧
    KeepsAllBut (fun c => (∃ px py, c = .pixel px py) ∨ c = .v 0xF#4) s t := by
  have hn : n.toNat ≤ 32 := Nat.le_trans (Nat.le_of_lt n.isLt) (by decide)
  obtain ⟨hcovered, huncovered, hcollision⟩ := blits_blitRows s (s.getV x).toNat (s.getV y).toNat n.toNat hn
  refine ⟨_, exec_drw x y n s, hcovered, huncovered, fun h => ?_, fun h => ?_,
    ((keeps_setFb s _).mono fun _ => .inl).trans ((keeps_setV _ regF _).mono fun _ => .inr)⟩
  · rw [regF, State.getV_setV_same, hcollision.2 (.inr h)]; rfl
  · have hflag := Bool.eq_false_iff.2 fun hset => h ((hcollision.1 hset).resolve_left Bool.false_ne_true)
    rw [regF, State.getV_setV_same, hflag]; rfl

/-- Settles O37: a covered pixel is flipped once, since no two sprite bits meet on the screen. -/
theorem drawFlipsTheCoveredPixels : Obligations.DrawFlipsTheCoveredPixels := by
  refine ⟨decodes_drw, fun x y n s => ?_⟩
  obtain ⟨t, ht, hcovered, huncovered, -, -, hframe⟩ := exec_drw_spec x y n s
  refine ⟨t, ht, hcovered, fun c hc => ?_⟩
  cases c with
  | pixel px py => exact huncovered px py fun h => hc (.inr ⟨px, py, rfl, h⟩)
  | v z => exact hframe _ fun h => hc (.inl (h.resolve_left (by simp)))
  | _ => exact hframe _ (by simp)

/-- Settles O38: the flag collects the set pixels that the sprite covers. -/
theorem drawFlagIsCollision : Obligations.DrawFlagIsCollision := by
  intro x y n s
  obtain ⟨t, ht, -, -, hset, hclear, -⟩ := exec_drw_spec x y n s
  exact ⟨t, ht, hset, hclear⟩

/-- What a sprite covers depends on memory, I and the two coordinates. -/
theorem drawCovers_congr {s u : State} {x y : Reg} (hmem : u.mem = s.mem) (hi : u.i = s.i) (hx : u.getV x = s.getV x)
    (hy : u.getV y = s.getV y) (n : BitVec 4) (px py : Nat) : drawCovers u x y n px py ↔ drawCovers s x y n px py := by
  simp only [drawCovers, spriteCovers, State.memRead, hmem, hi, hx, hy]

/-- Settles O39: the second draw covers the same pixels, flips them back, and meets as set those that were clear. -/
theorem drawingTwiceRestoresTheScreen : Obligations.DrawingTwiceRestoresTheScreen := by
  intro x y n s t u hfirst hfb hmem hi hx hy
  have hcovers := drawCovers_congr hmem hi hx hy n
  have hpixel : ∀ px py, u.pixel px py = t.pixel px py := fun px py => congrArg (Framebuffer.pixel · px py) hfb
  obtain ⟨t', ht, hflip, hkeep, -⟩ := exec_drw_spec x y n s
  cases ht.symm.trans hfirst
  obtain ⟨w, hw, hflip', hkeep', hset, hclear, -⟩ := exec_drw_spec x y n u
  have hcollision : (∃ px py, drawCovers u x y n px py ∧ u.pixel px py = true) ↔
      ∃ px py, drawCovers s x y n px py ∧ s.pixel px py = false := by
    refine exists_congr fun px => exists_congr fun py => ?_
    rw [hcovers]
    refine and_congr_right fun h => ?_
    rw [hpixel, hflip px py h, Bool.not_eq_true']
  refine ⟨w, hw, fun px py => ?restored, ?flag⟩
  case restored =>
    by_cases h : drawCovers s x y n px py
    · rw [hflip' px py ((hcovers px py).2 h), hpixel, hflip px py h, Bool.not_not]
    · rw [hkeep' px py fun h' => h ((hcovers px py).1 h'), hpixel, hkeep px py h]
  case flag =>
    refine ⟨fun hone => ?_, fun h => hset (hcollision.2 h)⟩
    by_contra h
    rw [hclear fun h' => h (hcollision.1 h')] at hone
    exact absurd hone (by decide)

end Sys2Proof.Machine
end
